-- ==== Sys2Proof/Word.lean ====
section
/-! DEFINITION. The word and the byte of the hardware, and the four flags of its status register. -/

namespace Sys2Proof

/-- A register, an address or an instruction word: 16 bits (R5, R8). -/
abbrev Word := BitVec 16

/-- The unit of data memory (R38). -/
abbrev Byte := BitVec 8

/-- The status register: exactly the four flags I, T, C, Z, kept as four separate bits (R27, R33). -/
structure SR where
  /-- Interrupt flag; `true` is the enabled state (R28, D23, log entry 28). -/
  i : Bool
  /-- Condition flag (R29). -/
  t : Bool
  /-- Carry flag (R30). -/
  c : Bool
  /-- Zero flag (R31). -/
  z : Bool
deriving DecidableEq, Repr

end Sys2Proof
end

