-- ==== Sys2Proof/Syntax.lean ====
section
/-! DEFINITION. The instructions: one constructor of `Instr` for each of the 80 rows of spec/opcode_table.json, under the
source's machine name, with the operands in the order of the assembly form. -/

namespace Sys2Proof

/-- The eight general registers R0..R7 (R20). -/
inductive Reg where
  | r0 | r1 | r2 | r3 | r4 | r5 | r6 | r7
deriving DecidableEq, Repr

/-- The eight condition codes that have an encoding, 000 to 111 (R170). -/
inductive Cond where
  | eq | ne | uge | ult | ge | lt | ugt | gt
deriving DecidableEq, Repr

/-- Every slot of the opcode map (R89): 62 implemented instructions, 3 not implemented, 15 reserved. -/
inductive Instr where
  -- Format I2: two registers with immediate (R90).
  /-- `lea Rs, K, Rd` (R137). -/
  | lea_mr (rs : Reg) (k : BitVec 5) (rd : Reg)
  /-- `ld.w [Rs, K], Rd` (R201). -/
  | movw_mr (rs : Reg) (k : BitVec 5) (rd : Reg)
  /-- `ld.zb [Rs, K], Rd` (R202). -/
  | movzb_mr (rs : Reg) (k : BitVec 5) (rd : Reg)
  /-- `ld.sb [Rs, K], Rd` (R203). -/
  | movsb_mr (rs : Reg) (k : BitVec 5) (rd : Reg)
  /-- `st.w Rd, [Rs, K]` (R204). -/
  | movw_rm (rd : Reg) (rs : Reg) (k : BitVec 5)
  /-- `st.b Rd, [Rs, K]` (R205). -/
  | movb_rm (rd : Reg) (rs : Reg) (k : BitVec 5)
  /-- Reserved (R97). -/
  | reserved_I2_11010
  /-- `and Rs, K, Rd` (R143). -/
  | and_kr (rs : Reg) (k : BitVec 5) (rd : Reg)
  /-- `cmp.cc Rs, K` (R172). -/
  | cmp_rkc (cc : Cond) (rs : Reg) (k : BitVec 5)
  /-- `cmpc.cc Rs, K` (R173). -/
  | cmpc_rkc (cc : Cond) (rs : Reg) (k : BitVec 5)
  -- Format P: long immediate (R91).
  /-- `call &Label` (R244). -/
  | call (k : BitVec 11)
  /-- `emitted by the assembler` (R120). -/
  | pfix_k (k : BitVec 11)
  -- Format I1: one register with immediate (R92).
  /-- `mov K, Rd` (R185). -/
  | mov_kr (k : BitVec 8) (rd : Reg)
  /-- `add Rd, K, Rd` (R130). -/
  | add_kr (rd : Reg) (k : BitVec 8)
  /-- `sub Rd, K, Rd` (R133). -/
  | sub_kr (rd : Reg) (k : BitVec 8)
  /-- `ld.w [&A], Rd` (R206). -/
  | movw_ar (k : BitVec 8) (rd : Reg)
  /-- `ld.sb [&A], Rd` (R207). -/
  | movsb_ar (k : BitVec 8) (rd : Reg)
  /-- `st.w Rd, [&A]` (R208). -/
  | movw_ra (rd : Reg) (k : BitVec 8)
  /-- `st.b Rd, [&A]` (R209). -/
  | movb_ra (rd : Reg) (k : BitVec 8)
  /-- `lea SP, K, Rd` (R138). -/
  | lea_qr (k : BitVec 8) (rd : Reg)
  /-- `ld.w [SP, K], Rd` (R210). -/
  | movw_qr (k : BitVec 8) (rd : Reg)
  /-- `ld.sb [SP, K], Rd` (R211). -/
  | movsb_qr (k : BitVec 8) (rd : Reg)
  /-- `st.w Rd, [SP, K]` (R212). -/
  | movw_rq (rd : Reg) (k : BitVec 8)
  /-- `st.b Rd, [SP, K]` (R213). -/
  | movb_rq (rd : Reg) (k : BitVec 8)
  -- Format R3: three registers (R93).
  /-- `cmp.cc Rs, Rn` (R174). -/
  | cmp_rrc (cc : Cond) (rs : Reg) (rn : Reg)
  /-- `cmpc.cc Rs, Rn` (R175). -/
  | cmpc_rrc (cc : Cond) (rs : Reg) (rn : Reg)
  /-- `sub Rs, Rn, Rd` (R134). -/
  | sub_rrr (rs : Reg) (rn : Reg) (rd : Reg)
  /-- `subc Rs, Rn, Rd` (R135). -/
  | subc_rrr (rs : Reg) (rn : Reg) (rd : Reg)
  /-- `or Rs, Rn, Rd` (R145). -/
  | or_rrr (rs : Reg) (rn : Reg) (rd : Reg)
  /-- `and Rs, Rn, Rd` (R144). -/
  | and_rrr (rs : Reg) (rn : Reg) (rd : Reg)
  /-- `xor Rs, Rn, Rd` (R146). -/
  | xor_rrr (rs : Reg) (rn : Reg) (rd : Reg)
  /-- `addc Rs, Rn, Rd` (R132). -/
  | adc_rrr (rs : Reg) (rn : Reg) (rd : Reg)
  /-- `add Rs, Rn, Rd` (R131). -/
  | add_rrr (rs : Reg) (rn : Reg) (rd : Reg)
  /-- `ld.w [Rs, Rn], Rd` (R214). -/
  | movw_nr (rs : Reg) (rn : Reg) (rd : Reg)
  /-- `ld.zb [Rs, Rn], Rd` (R215). -/
  | movzb_nr (rs : Reg) (rn : Reg) (rd : Reg)
  /-- `ld.sb [Rs, Rn], Rd` (R216). -/
  | movsb_nr (rs : Reg) (rn : Reg) (rd : Reg)
  /-- `st.w Rd, [Rs, Rn]` (R217). -/
  | movw_rn (rd : Reg) (rs : Reg) (rn : Reg)
  /-- `st.b Rd, [Rs, Rn]` (R218). -/
  | movb_rn (rd : Reg) (rs : Reg) (rn : Reg)
  /-- Reserved (R97). -/
  | reserved_R3_10110
  /-- Reserved (R97). -/
  | reserved_R3_10111
  /-- `selcc Rs, Rn, Rd` (R189). -/
  | sel_rrr (rs : Reg) (rn : Reg) (rd : Reg)
  /-- Reserved (R97). -/
  | reserved_R3_11001
  /-- Reserved (R97). -/
  | reserved_R3_11010
  /-- Reserved (R97). -/
  | reserved_R3_11011
  -- Format J: no registers with immediate (R94).
  /-- `brncc Label` (R240). -/
  | br_nt (k : BitVec 9)
  /-- `brcc Label` (R241). -/
  | br_t (k : BitVec 9)
  /-- `jmp Label` (R242). -/
  | jmp_k (k : BitVec 9)
  /-- `add SP, K, SP` (R139). -/
  | add_kq (k : BitVec 9)
  -- Format R2: zero, one or two registers (R95).
  /-- `mov Rs, Rd` (R186). -/
  | mov_rr (rs : Reg) (rd : Reg)
  /-- `mov Rs, SP` (R187). -/
  | mov_rq (rs : Reg)
  /-- `zext Rs, Rd` (R140). -/
  | zext_rr (rs : Reg) (rd : Reg)
  /-- `sext Rs, Rd` (R141). -/
  | sext_rr (rs : Reg) (rd : Reg)
  /-- `bswap Rs, Rd` (R188). -/
  | bswap_rr (rs : Reg) (rd : Reg)
  /-- `sextw Rs, Rd` (R142). -/
  | sextw_rr (rs : Reg) (rd : Reg)
  /-- Reserved (R97). -/
  | reserved_R2_00110
  /-- `ld.w {Rs}, Rd` (R219). -/
  | movw_pr (rs : Reg) (rd : Reg)
  /-- `lsr Rs, Rd` (R148). -/
  | lsr_rr (rs : Reg) (rd : Reg)
  /-- `lsrc Rs, Rd` (R150). -/
  | lsrc_rr (rs : Reg) (rd : Reg)
  /-- `asr Rs, Rd` (R149). -/
  | asr_rr (rs : Reg) (rd : Reg)
  /-- Reserved (R97). -/
  | reserved_R2_01011
  /-- Reserved (R97). -/
  | reserved_R2_01100
  /-- `neg Rs, Rd` (R136). -/
  | neg_rr (rs : Reg) (rd : Reg)
  /-- `not Rs, Rd` (R147). -/
  | not_rr (rs : Reg) (rd : Reg)
  /-- Reserved (R97). -/
  | reserved_R2_01111
  /-- `jmp Rd` (R243). -/
  | jmp_r (rd : Reg)
  /-- `call Rd` (R245). -/
  | call_r (rd : Reg)
  /-- `setcc Rd` (R190). -/
  | set_1r (rd : Reg)
  /-- `setcc Rs, Rd`, not implemented (R98, R191). -/
  | set_rr (rs : Reg) (rd : Reg)
  /-- Reserved (R97). -/
  | reserved_R2_10100
  /-- Reserved (R97). -/
  | reserved_R2_10101
  /-- `mov SR, Rd`, not implemented (R98, R192). -/
  | mov_sr (rd : Reg)
  /-- `mov Rd, SR`, not implemented (R98, R193). -/
  | mov_rs (rd : Reg)
  /-- `ret` (R246). -/
  | ret
  /-- `reti` (R257). -/
  | reti
  /-- `dint` (R255). -/
  | dint
  /-- `eint` (R256). -/
  | eint
  /-- `halt` (R258). -/
  | halt
  /-- Reserved (R97). -/
  | reserved_R2_11101
  /-- Reserved (R97). -/
  | reserved_R2_11110
  /-- Reserved (R97). -/
  | reserved_R2_11111
deriving DecidableEq, Repr

end Sys2Proof
end

