-- ==== Sys2Proof/WellFormed.lean ====
section
/-! DEFINITION. Which instructions are well formed: those that the hardware implements. Every operand field has its exact
width as its type, so no operand can be out of range; what is left to check is the slot's status. -/

namespace Sys2Proof

/-- How the source marks an opcode slot (R89). -/
inductive Status where
  | implemented
  | notImplemented
  | reserved
deriving DecidableEq, Repr

/-- The status column of the opcode table (R90 to R95, R97, R98). -/
def Instr.status : Instr → Status
  | .lea_mr _ _ _ => .implemented
  | .movw_mr _ _ _ => .implemented
  | .movzb_mr _ _ _ => .implemented
  | .movsb_mr _ _ _ => .implemented
  | .movw_rm _ _ _ => .implemented
  | .movb_rm _ _ _ => .implemented
  | .reserved_I2_11010 => .reserved
  | .and_kr _ _ _ => .implemented
  | .cmp_rkc _ _ _ => .implemented
  | .cmpc_rkc _ _ _ => .implemented
  | .call _ => .implemented
  | .pfix_k _ => .implemented
  | .mov_kr _ _ => .implemented
  | .add_kr _ _ => .implemented
  | .sub_kr _ _ => .implemented
  | .movw_ar _ _ => .implemented
  | .movsb_ar _ _ => .implemented
  | .movw_ra _ _ => .implemented
  | .movb_ra _ _ => .implemented
  | .lea_qr _ _ => .implemented
  | .movw_qr _ _ => .implemented
  | .movsb_qr _ _ => .implemented
  | .movw_rq _ _ => .implemented
  | .movb_rq _ _ => .implemented
  | .cmp_rrc _ _ _ => .implemented
  | .cmpc_rrc _ _ _ => .implemented
  | .sub_rrr _ _ _ => .implemented
  | .subc_rrr _ _ _ => .implemented
  | .or_rrr _ _ _ => .implemented
  | .and_rrr _ _ _ => .implemented
  | .xor_rrr _ _ _ => .implemented
  | .adc_rrr _ _ _ => .implemented
  | .add_rrr _ _ _ => .implemented
  | .movw_nr _ _ _ => .implemented
  | .movzb_nr _ _ _ => .implemented
  | .movsb_nr _ _ _ => .implemented
  | .movw_rn _ _ _ => .implemented
  | .movb_rn _ _ _ => .implemented
  | .reserved_R3_10110 => .reserved
  | .reserved_R3_10111 => .reserved
  | .sel_rrr _ _ _ => .implemented
  | .reserved_R3_11001 => .reserved
  | .reserved_R3_11010 => .reserved
  | .reserved_R3_11011 => .reserved
  | .br_nt _ => .implemented
  | .br_t _ => .implemented
  | .jmp_k _ => .implemented
  | .add_kq _ => .implemented
  | .mov_rr _ _ => .implemented
  | .mov_rq _ => .implemented
  | .zext_rr _ _ => .implemented
  | .sext_rr _ _ => .implemented
  | .bswap_rr _ _ => .implemented
  | .sextw_rr _ _ => .implemented
  | .reserved_R2_00110 => .reserved
  | .movw_pr _ _ => .implemented
  | .lsr_rr _ _ => .implemented
  | .lsrc_rr _ _ => .implemented
  | .asr_rr _ _ => .implemented
  | .reserved_R2_01011 => .reserved
  | .reserved_R2_01100 => .reserved
  | .neg_rr _ _ => .implemented
  | .not_rr _ _ => .implemented
  | .reserved_R2_01111 => .reserved
  | .jmp_r _ => .implemented
  | .call_r _ => .implemented
  | .set_1r _ => .implemented
  | .set_rr _ _ => .notImplemented
  | .reserved_R2_10100 => .reserved
  | .reserved_R2_10101 => .reserved
  | .mov_sr _ => .notImplemented
  | .mov_rs _ => .notImplemented
  | .ret => .implemented
  | .reti => .implemented
  | .dint => .implemented
  | .eint => .implemented
  | .halt => .implemented
  | .reserved_R2_11101 => .reserved
  | .reserved_R2_11110 => .reserved
  | .reserved_R2_11111 => .reserved

/-- An assembler can write the instruction and the hardware implements it: the slot is not reserved (R97), and it is not
one of the three that are named but not implemented (R98). -/
def Instr.wellFormed (i : Instr) : Bool :=
  i.status != .reserved && i.status != .notImplemented

end Sys2Proof
end

