-- ==== Sys2Proof/Decode.lean ====
section
/-! DEFINITION. The decoder, total on all 65536 words (R85), and the encoder, written from the tables R90 to R95.
A decoder ignores every bit that a format draws as `x` (R99); the encoder writes those bits as zeros (D15; log entry 16). -/

namespace Sys2Proof

/-! ### Register and condition-code numbers -/

/-- 000 = R0 .. 111 = R7 (R20). -/
def Reg.bits : Reg → BitVec 3
  | .r0 => 0b000 | .r1 => 0b001 | .r2 => 0b010 | .r3 => 0b011
  | .r4 => 0b100 | .r5 => 0b101 | .r6 => 0b110 | .r7 => 0b111

/-- The register that a 3-bit field names (R20). -/
def Reg.ofBits (b : BitVec 3) : Reg :=
  match b.toNat with
  | 0 => .r0 | 1 => .r1 | 2 => .r2 | 3 => .r3
  | 4 => .r4 | 5 => .r5 | 6 => .r6 | _ => .r7

/-- The encoding column of the condition-code table (R170). -/
def Cond.bits : Cond → BitVec 3
  | .eq => 0b000 | .ne => 0b001 | .uge => 0b010 | .ult => 0b011
  | .ge => 0b100 | .lt => 0b101 | .ugt => 0b110 | .gt => 0b111

/-- The condition code that a 3-bit field names (R170). -/
def Cond.ofBits (b : BitVec 3) : Cond :=
  match b.toNat with
  | 0 => .eq | 1 => .ne | 2 => .uge | 3 => .ult
  | 4 => .ge | 5 => .lt | 6 => .ugt | _ => .gt

/-! ### The fields of a word (R81, R88, R100) -/

/-- Bits 2:0. -/
def rdOf (w : Word) : Reg := Reg.ofBits (w.extractLsb' 0 3)
/-- Bits 5:3. -/
def rsOf (w : Word) : Reg := Reg.ofBits (w.extractLsb' 3 3)
/-- Bits 8:6. -/
def rnOf (w : Word) : Reg := Reg.ofBits (w.extractLsb' 6 3)
/-- Bits 2:0 of a compare. -/
def ccOf (w : Word) : Cond := Cond.ofBits (w.extractLsb' 0 3)
/-- I2: bits 10:6. -/
def imm5Of (w : Word) : BitVec 5 := w.extractLsb' 6 5
/-- I1: bits 10:3. -/
def imm8Of (w : Word) : BitVec 8 := w.extractLsb' 3 8
/-- J: bits 8:0. -/
def imm9Of (w : Word) : BitVec 9 := w.extractLsb' 0 9
/-- P: bits 10:0. -/
def imm11Of (w : Word) : BitVec 11 := w.extractLsb' 0 11

/-! ### The instruction of each format, by its secondary opcode -/

/-- Format I2 (R90), opcode in bits 15:11. -/
def decodeI2 (w : Word) : Option Instr :=
  match (w.extractLsb' 11 5).toNat with
  | 20 => some (.lea_mr (rsOf w) (imm5Of w) (rdOf w))
  | 21 => some (.movw_mr (rsOf w) (imm5Of w) (rdOf w))
  | 22 => some (.movzb_mr (rsOf w) (imm5Of w) (rdOf w))
  | 23 => some (.movsb_mr (rsOf w) (imm5Of w) (rdOf w))
  | 24 => some (.movw_rm (rdOf w) (rsOf w) (imm5Of w))
  | 25 => some (.movb_rm (rdOf w) (rsOf w) (imm5Of w))
  | 26 => some .reserved_I2_11010
  | 27 => some (.and_kr (rsOf w) (imm5Of w) (rdOf w))
  | 28 => some (.cmp_rkc (ccOf w) (rsOf w) (imm5Of w))
  | 29 => some (.cmpc_rkc (ccOf w) (rsOf w) (imm5Of w))
  | _ => none

/-- Format P (R91), opcode in bits 15:11. -/
def decodeP (w : Word) : Option Instr :=
  match (w.extractLsb' 11 5).toNat with
  | 30 => some (.call (imm11Of w))
  | 31 => some (.pfix_k (imm11Of w))
  | _ => none

/-- Format I1 (R92), opcode in bits 15:11. -/
def decodeI1 (w : Word) : Option Instr :=
  match (w.extractLsb' 11 5).toNat with
  | 8 => some (.mov_kr (imm8Of w) (rdOf w))
  | 9 => some (.add_kr (rdOf w) (imm8Of w))
  | 10 => some (.sub_kr (rdOf w) (imm8Of w))
  | 11 => some (.movw_ar (imm8Of w) (rdOf w))
  | 12 => some (.movsb_ar (imm8Of w) (rdOf w))
  | 13 => some (.movw_ra (rdOf w) (imm8Of w))
  | 14 => some (.movb_ra (rdOf w) (imm8Of w))
  | 15 => some (.lea_qr (imm8Of w) (rdOf w))
  | 16 => some (.movw_qr (imm8Of w) (rdOf w))
  | 17 => some (.movsb_qr (imm8Of w) (rdOf w))
  | 18 => some (.movw_rq (rdOf w) (imm8Of w))
  | 19 => some (.movb_rq (rdOf w) (imm8Of w))
  | _ => none

/-- Format R3 (R93), opcode in bits 13:9. -/
def decodeR3 (w : Word) : Option Instr :=
  match (w.extractLsb' 9 5).toNat with
  | 8 => some (.cmp_rrc (ccOf w) (rsOf w) (rnOf w))
  | 9 => some (.cmpc_rrc (ccOf w) (rsOf w) (rnOf w))
  | 10 => some (.sub_rrr (rsOf w) (rnOf w) (rdOf w))
  | 11 => some (.subc_rrr (rsOf w) (rnOf w) (rdOf w))
  | 12 => some (.or_rrr (rsOf w) (rnOf w) (rdOf w))
  | 13 => some (.and_rrr (rsOf w) (rnOf w) (rdOf w))
  | 14 => some (.xor_rrr (rsOf w) (rnOf w) (rdOf w))
  | 15 => some (.adc_rrr (rsOf w) (rnOf w) (rdOf w))
  | 16 => some (.add_rrr (rsOf w) (rnOf w) (rdOf w))
  | 17 => some (.movw_nr (rsOf w) (rnOf w) (rdOf w))
  | 18 => some (.movzb_nr (rsOf w) (rnOf w) (rdOf w))
  | 19 => some (.movsb_nr (rsOf w) (rnOf w) (rdOf w))
  | 20 => some (.movw_rn (rdOf w) (rsOf w) (rnOf w))
  | 21 => some (.movb_rn (rdOf w) (rsOf w) (rnOf w))
  | 22 => some .reserved_R3_10110
  | 23 => some .reserved_R3_10111
  | 24 => some (.sel_rrr (rsOf w) (rnOf w) (rdOf w))
  | 25 => some .reserved_R3_11001
  | 26 => some .reserved_R3_11010
  | 27 => some .reserved_R3_11011
  | _ => none

/-- Format J (R94), opcode in bits 13:9. -/
def decodeJ (w : Word) : Option Instr :=
  match (w.extractLsb' 9 5).toNat with
  | 28 => some (.br_nt (imm9Of w))
  | 29 => some (.br_t (imm9Of w))
  | 30 => some (.jmp_k (imm9Of w))
  | 31 => some (.add_kq (imm9Of w))
  | _ => none

/-- Format R2 (R95), opcode in bits 11:7; bit 6 is ignored (R99). -/
def decodeR2 (w : Word) : Option Instr :=
  match (w.extractLsb' 7 5).toNat with
  | 0 => some (.mov_rr (rsOf w) (rdOf w))
  | 1 => some (.mov_rq (rsOf w))
  | 2 => some (.zext_rr (rsOf w) (rdOf w))
  | 3 => some (.sext_rr (rsOf w) (rdOf w))
  | 4 => some (.bswap_rr (rsOf w) (rdOf w))
  | 5 => some (.sextw_rr (rsOf w) (rdOf w))
  | 6 => some .reserved_R2_00110
  | 7 => some (.movw_pr (rsOf w) (rdOf w))
  | 8 => some (.lsr_rr (rsOf w) (rdOf w))
  | 9 => some (.lsrc_rr (rsOf w) (rdOf w))
  | 10 => some (.asr_rr (rsOf w) (rdOf w))
  | 11 => some .reserved_R2_01011
  | 12 => some .reserved_R2_01100
  | 13 => some (.neg_rr (rsOf w) (rdOf w))
  | 14 => some (.not_rr (rsOf w) (rdOf w))
  | 15 => some .reserved_R2_01111
  | 16 => some (.jmp_r (rdOf w))
  | 17 => some (.call_r (rdOf w))
  | 18 => some (.set_1r (rdOf w))
  | 19 => some (.set_rr (rsOf w) (rdOf w))
  | 20 => some .reserved_R2_10100
  | 21 => some .reserved_R2_10101
  | 22 => some (.mov_sr (rdOf w))
  | 23 => some (.mov_rs (rdOf w))
  | 24 => some .ret
  | 25 => some .reti
  | 26 => some .dint
  | 27 => some .eint
  | 28 => some .halt
  | 29 => some .reserved_R2_11101
  | 30 => some .reserved_R2_11110
  | 31 => some .reserved_R2_11111
  | _ => none

/-- The decoding procedure of R85: the leading bits choose the format, the secondary opcode the instruction.
Every word selects exactly one row (R83), so `none` is never the answer; it is there so that no opcode falls through to a
neighbour. -/
def decode (w : Word) : Option Instr :=
  if w.extractLsb' 14 2 ≠ 0b00#2 then
    if 0b11110 ≤ (w.extractLsb' 11 5).toNat then decodeP w
    else if 0b10100 ≤ (w.extractLsb' 11 5).toNat then decodeI2 w
    else decodeI1 w
  else
    if 0b11100 ≤ (w.extractLsb' 9 5).toNat then decodeJ w
    else if 0b01000 ≤ (w.extractLsb' 9 5).toNat then decodeR3 w
    else decodeR2 w

/-- The instruction that the decoder reads from a row's bits, numbered as spec/opcode_table.json numbers them.
Every instruction is one 16-bit word (R80). -/
def decodeTableWord (nbits w : Nat) : Option Instr :=
  decode (BitVec.ofNat 16 (w % 2 ^ nbits))

/-! ### The encoder -/

/-- The six formats (R81). -/
inductive Format where
  | p | i2 | i1 | j | r3 | r2
deriving DecidableEq, Repr

/-- The format of an instruction: the format column of spec/opcode_table.json (R90 to R95). -/
def Instr.format : Instr → Format
  | .lea_mr _ _ _ => .i2
  | .movw_mr _ _ _ => .i2
  | .movzb_mr _ _ _ => .i2
  | .movsb_mr _ _ _ => .i2
  | .movw_rm _ _ _ => .i2
  | .movb_rm _ _ _ => .i2
  | .reserved_I2_11010 => .i2
  | .and_kr _ _ _ => .i2
  | .cmp_rkc _ _ _ => .i2
  | .cmpc_rkc _ _ _ => .i2
  | .call _ => .p
  | .pfix_k _ => .p
  | .mov_kr _ _ => .i1
  | .add_kr _ _ => .i1
  | .sub_kr _ _ => .i1
  | .movw_ar _ _ => .i1
  | .movsb_ar _ _ => .i1
  | .movw_ra _ _ => .i1
  | .movb_ra _ _ => .i1
  | .lea_qr _ _ => .i1
  | .movw_qr _ _ => .i1
  | .movsb_qr _ _ => .i1
  | .movw_rq _ _ => .i1
  | .movb_rq _ _ => .i1
  | .cmp_rrc _ _ _ => .r3
  | .cmpc_rrc _ _ _ => .r3
  | .sub_rrr _ _ _ => .r3
  | .subc_rrr _ _ _ => .r3
  | .or_rrr _ _ _ => .r3
  | .and_rrr _ _ _ => .r3
  | .xor_rrr _ _ _ => .r3
  | .adc_rrr _ _ _ => .r3
  | .add_rrr _ _ _ => .r3
  | .movw_nr _ _ _ => .r3
  | .movzb_nr _ _ _ => .r3
  | .movsb_nr _ _ _ => .r3
  | .movw_rn _ _ _ => .r3
  | .movb_rn _ _ _ => .r3
  | .reserved_R3_10110 => .r3
  | .reserved_R3_10111 => .r3
  | .sel_rrr _ _ _ => .r3
  | .reserved_R3_11001 => .r3
  | .reserved_R3_11010 => .r3
  | .reserved_R3_11011 => .r3
  | .br_nt _ => .j
  | .br_t _ => .j
  | .jmp_k _ => .j
  | .add_kq _ => .j
  | .mov_rr _ _ => .r2
  | .mov_rq _ => .r2
  | .zext_rr _ _ => .r2
  | .sext_rr _ _ => .r2
  | .bswap_rr _ _ => .r2
  | .sextw_rr _ _ => .r2
  | .reserved_R2_00110 => .r2
  | .movw_pr _ _ => .r2
  | .lsr_rr _ _ => .r2
  | .lsrc_rr _ _ => .r2
  | .asr_rr _ _ => .r2
  | .reserved_R2_01011 => .r2
  | .reserved_R2_01100 => .r2
  | .neg_rr _ _ => .r2
  | .not_rr _ _ => .r2
  | .reserved_R2_01111 => .r2
  | .jmp_r _ => .r2
  | .call_r _ => .r2
  | .set_1r _ => .r2
  | .set_rr _ _ => .r2
  | .reserved_R2_10100 => .r2
  | .reserved_R2_10101 => .r2
  | .mov_sr _ => .r2
  | .mov_rs _ => .r2
  | .ret => .r2
  | .reti => .r2
  | .dint => .r2
  | .eint => .r2
  | .halt => .r2
  | .reserved_R2_11101 => .r2
  | .reserved_R2_11110 => .r2
  | .reserved_R2_11111 => .r2

/-- I2: opcode(5) imm(5) Rs(3) Rd or cc(3) (R81). -/
def formI2 (op k : BitVec 5) (s d : BitVec 3) : Word := op ++ k ++ s ++ d
/-- P: opcode(5) imm(11) (R81). -/
def formP (op : BitVec 5) (k : BitVec 11) : Word := op ++ k
/-- I1: opcode(5) imm(8) Rd(3) (R81). -/
def formI1 (op : BitVec 5) (k : BitVec 8) (d : BitVec 3) : Word := op ++ k ++ d
/-- R3: 00 opcode(5) Rn(3) Rs(3) Rd or cc(3) (R81). -/
def formR3 (op : BitVec 5) (n s d : BitVec 3) : Word := 0b00#2 ++ op ++ n ++ s ++ d
/-- J: 00 opcode(5) imm(9) (R81, R94). -/
def formJ (op : BitVec 5) (k : BitVec 9) : Word := 0b00#2 ++ op ++ k
/-- R2: 0000 opcode(5), bit 6 written 0, Rs(3) Rd(3) (R81, R99). -/
def formR2 (op : BitVec 5) (s d : BitVec 3) : Word := 0b0000#4 ++ op ++ 0b0#1 ++ s ++ d

/-- The one word of an instruction, with zeros in every ignored bit (R80, R90 to R95, R99). -/
def encode : Instr → Word
  | .lea_mr rs k rd => formI2 0b10100#5 k rs.bits rd.bits
  | .movw_mr rs k rd => formI2 0b10101#5 k rs.bits rd.bits
  | .movzb_mr rs k rd => formI2 0b10110#5 k rs.bits rd.bits
  | .movsb_mr rs k rd => formI2 0b10111#5 k rs.bits rd.bits
  | .movw_rm rd rs k => formI2 0b11000#5 k rs.bits rd.bits
  | .movb_rm rd rs k => formI2 0b11001#5 k rs.bits rd.bits
  | .reserved_I2_11010 => formI2 0b11010#5 0#5 0#3 0#3
  | .and_kr rs k rd => formI2 0b11011#5 k rs.bits rd.bits
  | .cmp_rkc cc rs k => formI2 0b11100#5 k rs.bits cc.bits
  | .cmpc_rkc cc rs k => formI2 0b11101#5 k rs.bits cc.bits
  | .call k => formP 0b11110#5 k
  | .pfix_k k => formP 0b11111#5 k
  | .mov_kr k rd => formI1 0b01000#5 k rd.bits
  | .add_kr rd k => formI1 0b01001#5 k rd.bits
  | .sub_kr rd k => formI1 0b01010#5 k rd.bits
  | .movw_ar k rd => formI1 0b01011#5 k rd.bits
  | .movsb_ar k rd => formI1 0b01100#5 k rd.bits
  | .movw_ra rd k => formI1 0b01101#5 k rd.bits
  | .movb_ra rd k => formI1 0b01110#5 k rd.bits
  | .lea_qr k rd => formI1 0b01111#5 k rd.bits
  | .movw_qr k rd => formI1 0b10000#5 k rd.bits
  | .movsb_qr k rd => formI1 0b10001#5 k rd.bits
  | .movw_rq rd k => formI1 0b10010#5 k rd.bits
  | .movb_rq rd k => formI1 0b10011#5 k rd.bits
  | .cmp_rrc cc rs rn => formR3 0b01000#5 rn.bits rs.bits cc.bits
  | .cmpc_rrc cc rs rn => formR3 0b01001#5 rn.bits rs.bits cc.bits
  | .sub_rrr rs rn rd => formR3 0b01010#5 rn.bits rs.bits rd.bits
  | .subc_rrr rs rn rd => formR3 0b01011#5 rn.bits rs.bits rd.bits
  | .or_rrr rs rn rd => formR3 0b01100#5 rn.bits rs.bits rd.bits
  | .and_rrr rs rn rd => formR3 0b01101#5 rn.bits rs.bits rd.bits
  | .xor_rrr rs rn rd => formR3 0b01110#5 rn.bits rs.bits rd.bits
  | .adc_rrr rs rn rd => formR3 0b01111#5 rn.bits rs.bits rd.bits
  | .add_rrr rs rn rd => formR3 0b10000#5 rn.bits rs.bits rd.bits
  | .movw_nr rs rn rd => formR3 0b10001#5 rn.bits rs.bits rd.bits
  | .movzb_nr rs rn rd => formR3 0b10010#5 rn.bits rs.bits rd.bits
  | .movsb_nr rs rn rd => formR3 0b10011#5 rn.bits rs.bits rd.bits
  | .movw_rn rd rs rn => formR3 0b10100#5 rn.bits rs.bits rd.bits
  | .movb_rn rd rs rn => formR3 0b10101#5 rn.bits rs.bits rd.bits
  | .reserved_R3_10110 => formR3 0b10110#5 0#3 0#3 0#3
  | .reserved_R3_10111 => formR3 0b10111#5 0#3 0#3 0#3
  | .sel_rrr rs rn rd => formR3 0b11000#5 rn.bits rs.bits rd.bits
  | .reserved_R3_11001 => formR3 0b11001#5 0#3 0#3 0#3
  | .reserved_R3_11010 => formR3 0b11010#5 0#3 0#3 0#3
  | .reserved_R3_11011 => formR3 0b11011#5 0#3 0#3 0#3
  | .br_nt k => formJ 0b11100#5 k
  | .br_t k => formJ 0b11101#5 k
  | .jmp_k k => formJ 0b11110#5 k
  | .add_kq k => formJ 0b11111#5 k
  | .mov_rr rs rd => formR2 0b00000#5 rs.bits rd.bits
  | .mov_rq rs => formR2 0b00001#5 rs.bits 0#3
  | .zext_rr rs rd => formR2 0b00010#5 rs.bits rd.bits
  | .sext_rr rs rd => formR2 0b00011#5 rs.bits rd.bits
  | .bswap_rr rs rd => formR2 0b00100#5 rs.bits rd.bits
  | .sextw_rr rs rd => formR2 0b00101#5 rs.bits rd.bits
  | .reserved_R2_00110 => formR2 0b00110#5 0#3 0#3
  | .movw_pr rs rd => formR2 0b00111#5 rs.bits rd.bits
  | .lsr_rr rs rd => formR2 0b01000#5 rs.bits rd.bits
  | .lsrc_rr rs rd => formR2 0b01001#5 rs.bits rd.bits
  | .asr_rr rs rd => formR2 0b01010#5 rs.bits rd.bits
  | .reserved_R2_01011 => formR2 0b01011#5 0#3 0#3
  | .reserved_R2_01100 => formR2 0b01100#5 0#3 0#3
  | .neg_rr rs rd => formR2 0b01101#5 rs.bits rd.bits
  | .not_rr rs rd => formR2 0b01110#5 rs.bits rd.bits
  | .reserved_R2_01111 => formR2 0b01111#5 0#3 0#3
  | .jmp_r rd => formR2 0b10000#5 0#3 rd.bits
  | .call_r rd => formR2 0b10001#5 0#3 rd.bits
  | .set_1r rd => formR2 0b10010#5 0#3 rd.bits
  | .set_rr rs rd => formR2 0b10011#5 rs.bits rd.bits
  | .reserved_R2_10100 => formR2 0b10100#5 0#3 0#3
  | .reserved_R2_10101 => formR2 0b10101#5 0#3 0#3
  | .mov_sr rd => formR2 0b10110#5 0#3 rd.bits
  | .mov_rs rd => formR2 0b10111#5 0#3 rd.bits
  | .ret => formR2 0b11000#5 0#3 0#3
  | .reti => formR2 0b11001#5 0#3 0#3
  | .dint => formR2 0b11010#5 0#3 0#3
  | .eint => formR2 0b11011#5 0#3 0#3
  | .halt => formR2 0b11100#5 0#3 0#3
  | .reserved_R2_11101 => formR2 0b11101#5 0#3 0#3
  | .reserved_R2_11110 => formR2 0b11110#5 0#3 0#3
  | .reserved_R2_11111 => formR2 0b11111#5 0#3 0#3

/-- The bits that select the instruction's row: the mask column of spec/opcode_table.json. -/
def Instr.mask : Instr → Word
  | .lea_mr _ _ _ => 0xF800
  | .movw_mr _ _ _ => 0xF800
  | .movzb_mr _ _ _ => 0xF800
  | .movsb_mr _ _ _ => 0xF800
  | .movw_rm _ _ _ => 0xF800
  | .movb_rm _ _ _ => 0xF800
  | .reserved_I2_11010 => 0xF800
  | .and_kr _ _ _ => 0xF800
  | .cmp_rkc _ _ _ => 0xF800
  | .cmpc_rkc _ _ _ => 0xF800
  | .call _ => 0xF800
  | .pfix_k _ => 0xF800
  | .mov_kr _ _ => 0xF800
  | .add_kr _ _ => 0xF800
  | .sub_kr _ _ => 0xF800
  | .movw_ar _ _ => 0xF800
  | .movsb_ar _ _ => 0xF800
  | .movw_ra _ _ => 0xF800
  | .movb_ra _ _ => 0xF800
  | .lea_qr _ _ => 0xF800
  | .movw_qr _ _ => 0xF800
  | .movsb_qr _ _ => 0xF800
  | .movw_rq _ _ => 0xF800
  | .movb_rq _ _ => 0xF800
  | .cmp_rrc _ _ _ => 0xFE00
  | .cmpc_rrc _ _ _ => 0xFE00
  | .sub_rrr _ _ _ => 0xFE00
  | .subc_rrr _ _ _ => 0xFE00
  | .or_rrr _ _ _ => 0xFE00
  | .and_rrr _ _ _ => 0xFE00
  | .xor_rrr _ _ _ => 0xFE00
  | .adc_rrr _ _ _ => 0xFE00
  | .add_rrr _ _ _ => 0xFE00
  | .movw_nr _ _ _ => 0xFE00
  | .movzb_nr _ _ _ => 0xFE00
  | .movsb_nr _ _ _ => 0xFE00
  | .movw_rn _ _ _ => 0xFE00
  | .movb_rn _ _ _ => 0xFE00
  | .reserved_R3_10110 => 0xFE00
  | .reserved_R3_10111 => 0xFE00
  | .sel_rrr _ _ _ => 0xFE00
  | .reserved_R3_11001 => 0xFE00
  | .reserved_R3_11010 => 0xFE00
  | .reserved_R3_11011 => 0xFE00
  | .br_nt _ => 0xFE00
  | .br_t _ => 0xFE00
  | .jmp_k _ => 0xFE00
  | .add_kq _ => 0xFE00
  | .mov_rr _ _ => 0xFF80
  | .mov_rq _ => 0xFF80
  | .zext_rr _ _ => 0xFF80
  | .sext_rr _ _ => 0xFF80
  | .bswap_rr _ _ => 0xFF80
  | .sextw_rr _ _ => 0xFF80
  | .reserved_R2_00110 => 0xFF80
  | .movw_pr _ _ => 0xFF80
  | .lsr_rr _ _ => 0xFF80
  | .lsrc_rr _ _ => 0xFF80
  | .asr_rr _ _ => 0xFF80
  | .reserved_R2_01011 => 0xFF80
  | .reserved_R2_01100 => 0xFF80
  | .neg_rr _ _ => 0xFF80
  | .not_rr _ _ => 0xFF80
  | .reserved_R2_01111 => 0xFF80
  | .jmp_r _ => 0xFF80
  | .call_r _ => 0xFF80
  | .set_1r _ => 0xFF80
  | .set_rr _ _ => 0xFF80
  | .reserved_R2_10100 => 0xFF80
  | .reserved_R2_10101 => 0xFF80
  | .mov_sr _ => 0xFF80
  | .mov_rs _ => 0xFF80
  | .ret => 0xFF80
  | .reti => 0xFF80
  | .dint => 0xFF80
  | .eint => 0xFF80
  | .halt => 0xFF80
  | .reserved_R2_11101 => 0xFF80
  | .reserved_R2_11110 => 0xFF80
  | .reserved_R2_11111 => 0xFF80

/-- What those bits hold: the match column of spec/opcode_table.json. -/
def Instr.pattern : Instr → Word
  | .lea_mr _ _ _ => 0xA000
  | .movw_mr _ _ _ => 0xA800
  | .movzb_mr _ _ _ => 0xB000
  | .movsb_mr _ _ _ => 0xB800
  | .movw_rm _ _ _ => 0xC000
  | .movb_rm _ _ _ => 0xC800
  | .reserved_I2_11010 => 0xD000
  | .and_kr _ _ _ => 0xD800
  | .cmp_rkc _ _ _ => 0xE000
  | .cmpc_rkc _ _ _ => 0xE800
  | .call _ => 0xF000
  | .pfix_k _ => 0xF800
  | .mov_kr _ _ => 0x4000
  | .add_kr _ _ => 0x4800
  | .sub_kr _ _ => 0x5000
  | .movw_ar _ _ => 0x5800
  | .movsb_ar _ _ => 0x6000
  | .movw_ra _ _ => 0x6800
  | .movb_ra _ _ => 0x7000
  | .lea_qr _ _ => 0x7800
  | .movw_qr _ _ => 0x8000
  | .movsb_qr _ _ => 0x8800
  | .movw_rq _ _ => 0x9000
  | .movb_rq _ _ => 0x9800
  | .cmp_rrc _ _ _ => 0x1000
  | .cmpc_rrc _ _ _ => 0x1200
  | .sub_rrr _ _ _ => 0x1400
  | .subc_rrr _ _ _ => 0x1600
  | .or_rrr _ _ _ => 0x1800
  | .and_rrr _ _ _ => 0x1A00
  | .xor_rrr _ _ _ => 0x1C00
  | .adc_rrr _ _ _ => 0x1E00
  | .add_rrr _ _ _ => 0x2000
  | .movw_nr _ _ _ => 0x2200
  | .movzb_nr _ _ _ => 0x2400
  | .movsb_nr _ _ _ => 0x2600
  | .movw_rn _ _ _ => 0x2800
  | .movb_rn _ _ _ => 0x2A00
  | .reserved_R3_10110 => 0x2C00
  | .reserved_R3_10111 => 0x2E00
  | .sel_rrr _ _ _ => 0x3000
  | .reserved_R3_11001 => 0x3200
  | .reserved_R3_11010 => 0x3400
  | .reserved_R3_11011 => 0x3600
  | .br_nt _ => 0x3800
  | .br_t _ => 0x3A00
  | .jmp_k _ => 0x3C00
  | .add_kq _ => 0x3E00
  | .mov_rr _ _ => 0x0000
  | .mov_rq _ => 0x0080
  | .zext_rr _ _ => 0x0100
  | .sext_rr _ _ => 0x0180
  | .bswap_rr _ _ => 0x0200
  | .sextw_rr _ _ => 0x0280
  | .reserved_R2_00110 => 0x0300
  | .movw_pr _ _ => 0x0380
  | .lsr_rr _ _ => 0x0400
  | .lsrc_rr _ _ => 0x0480
  | .asr_rr _ _ => 0x0500
  | .reserved_R2_01011 => 0x0580
  | .reserved_R2_01100 => 0x0600
  | .neg_rr _ _ => 0x0680
  | .not_rr _ _ => 0x0700
  | .reserved_R2_01111 => 0x0780
  | .jmp_r _ => 0x0800
  | .call_r _ => 0x0880
  | .set_1r _ => 0x0900
  | .set_rr _ _ => 0x0980
  | .reserved_R2_10100 => 0x0A00
  | .reserved_R2_10101 => 0x0A80
  | .mov_sr _ => 0x0B00
  | .mov_rs _ => 0x0B80
  | .ret => 0x0C00
  | .reti => 0x0C80
  | .dint => 0x0D00
  | .eint => 0x0D80
  | .halt => 0x0E00
  | .reserved_R2_11101 => 0x0E80
  | .reserved_R2_11110 => 0x0F00
  | .reserved_R2_11111 => 0x0F80

end Sys2Proof
end

