-- ==== Sys2Proof/Config.lean ====
section
/-! DEFINITION. The parameters that the spec leaves open (R6), as a record that is fixed for a run, and the free values:
constants with no body, so that nothing can be proved of them. -/

namespace Sys2Proof

/-- BYTE_ORDER (R51, D6; log entry 7). -/
inductive ByteOrder where
  | little
  | big
deriving DecidableEq, Repr

/-- MISALIGNED_WORD (R52, R56, D7; log entry 8): the default fault, and the two readings that D7 sets aside. -/
inductive Misaligned where
  | fault
  | ignoreBit0
  | split
deriving DecidableEq, Repr

/-- IRQ_MODEL, and IRQ_VECTOR where the model has one (R278, R279, D19; log entry 23). -/
inductive IrqModel where
  | refuse
  | stack (vector : Word)
deriving DecidableEq, Repr

/-- A range of data addresses that memory backs: DMEM_VALID is a list of these (R52, D21; log entry 26). -/
structure Region where
  base : Nat
  size : Nat
deriving DecidableEq, Repr

/-- The parameters of R6.
PMEM is the state's program memory; LOGIC_C and SHIFT_ZT are the free values below. -/
structure Config where
  /-- PM_WORD_ADDRESSED (D1; log entry 2). -/
  pmWordAddressed : Bool
  /-- BR_BASE (D3; log entry 4). -/
  brBase : Word
  byteOrder : ByteOrder
  misalignedWord : Misaligned
  /-- SUB_C_IS_NOT_BORROW (D9; log entry 10). -/
  subCIsNotBorrow : Bool
  /-- Z_CHAIN (D10; log entry 11). -/
  zChain : Bool
  /-- RESET_PC (D18; log entry 19). -/
  resetPc : Word
  /-- RESET_I (D18; log entry 19). -/
  resetI : Bool
  irqModel : IrqModel
  /-- DMEM_VALID (D21; log entry 26). -/
  dmem : List Region
deriving DecidableEq, Repr

/-- The default column of R6. -/
def Config.default : Config where
  pmWordAddressed := true
  brBase := 1
  byteOrder := .little
  misalignedWord := .fault
  subCIsNotBorrow := true
  zChain := true
  resetPc := 0x0000
  resetI := false
  irqModel := .refuse
  dmem := [⟨0, 65536⟩]

/-- FREE VALUE. LOGIC_C (D11, R143 to R147; log entry 12): C after and, or, xor, not.
Its arguments are the number of the draw, the flags before, the two operands and the result. -/
opaque Config.logicC : Nat → SR → Word → Word → Word → Bool

/-- FREE VALUE. SHIFT_ZT (D12, R148 to R150; log entry 13): Z after lsr, asr, lsrc.
Its arguments are the number of the draw, the flags before, the operand and the result. -/
opaque Config.shiftZ : Nat → SR → Word → Word → Bool

/-- FREE VALUE. SHIFT_ZT (D12, R148 to R150; log entry 13): T after lsr, asr, lsrc. -/
opaque Config.shiftT : Nat → SR → Word → Word → Bool

/-- FREE VALUE. What a byte of data memory that nothing has written reads as, by its address (R42, D24; log entry 21). -/
opaque Config.unwrittenByte : Word → Byte

/-- FREE VALUE. What `ld.w {Rs}` reads from a program word that is not loaded, by its index (R42, R303; log entry 22). -/
opaque Config.unloadedWord : Nat → Word

end Sys2Proof
end

