-- ==== Sys2Proof/Machine/State.lean ====
section
/-! DEFINITION. The machine's state, all of it as plain data, its state after reset, and the reasons for which a step
stops. -/

namespace Sys2Proof.Machine

/-- The general registers R0..R7, 16 bits each (R20, R21). -/
structure Regs where
  r0 : Word
  r1 : Word
  r2 : Word
  r3 : Word
  r4 : Word
  r5 : Word
  r6 : Word
  r7 : Word
deriving DecidableEq, Repr

/-- Data memory: the bytes that have been written, at most 65536, by rising address (R38, R42).
An unlisted address holds no written byte, so no entry can equal what an unlisted address holds. -/
abbrev Memory := List Host.Cell

/-- Program memory: the words that are loaded, at most 65536, by rising index (R39, R54). -/
abbrev ProgMem := List (Nat × Word)

/-- Everything the spec gives the machine, and two fields of the model's own (`irq`, `draws`). -/
structure State where
  /-- The parameters of R6, fixed for a run: no step writes them. -/
  cfg : Config
  /-- R0..R7 (R20). -/
  regs : Regs
  /-- The stack pointer (R22). -/
  sp : Word
  /-- The program counter: the address of the instruction being executed (R24). -/
  pc : Word
  /-- The status register (R27). -/
  sr : SR
  /-- The pending prefix: 11 bits between a `pfix_k` and the next instruction (R35). -/
  pfx : Option (BitVec 11)
  /-- Set by `halt`; no instruction executes when it is set (R36). -/
  halted : Bool
  /-- Data memory (R38). -/
  mem : Memory
  /-- Program memory, constant during a run (R39, R54). -/
  pmem : ProgMem
  /-- The model's own: the levels of the request input at the coming boundaries, 0 after its end (R37, R276; log entry 24). -/
  irq : List Bool
  /-- The model's own: how many instructions have drawn open flag values (log entry 29). -/
  draws : Nat
deriving DecidableEq, Repr

/-- The information of InterruptUnspecified (R270): the `reti` word, or the accepted request. -/
inductive InterruptCause where
  | reti (w : Word)
  | request
deriving DecidableEq, Repr

/-- The named faults of R270. Each is the model refusing to say what the hardware does; none is an event that the hardware
is claimed to raise, and a faulting step changes no state (R273). -/
inductive Fault where
  /-- A "Reserved" word was fetched; raised by the 15 reserved slots (R97). Safe. -/
  | reservedInstruction (w : Word)
  /-- A word of set_rr, mov_sr or mov_rs was fetched; raised by those three (R98). Safe. -/
  | notImplemented (w : Word)
  /-- An R3 or R2 word or a `pfix_k` with a prefix pending; raised by those instructions (R124). Safe. -/
  | prefixMisuse (w : Word)
  /-- A word access to data memory at an odd address, when MISALIGNED_WORD is the fault; raised by the word loads and
  stores, call, ret, interrupt entry and reti (R56). Safe. -/
  | misalignedWord (addr : Word)
  /-- A data access where DMEM_VALID is false; raised by every access to data memory (R52). Safe. -/
  | unmappedAccess (addr : Word)
  /-- A fetch of a program word that is not loaded; raised by the step (R274). Safe. -/
  | unwrittenRead (pc : Word)
  /-- `reti`, or an accepted request, under IRQ_MODEL = refuse; raised by reti and by the step (R257, R278). Safe. -/
  | interruptUnspecified (cause : InterruptCause)
deriving DecidableEq, Repr

/-- Where a step has no meaning and no fault of R270. -/
inductive Refusal where
  /-- An instruction with no meaning yet; raised by the dispatcher alone. Safe. -/
  | notModelled (mnemonic : String)
  /-- The processor is halted: the end of the run, not a fault; raised by the step (R258). Unsafe only if the chip resumes
  after `halt` (D20, log entry 25). -/
  | halted
  /-- A word that selects no row of the opcode table; raised by the step, and by no word at all (R83). Safe. -/
  | undecodable (w : Word)
  /-- An odd address of byte-addressed program memory; raised by the step and by `ld.w {Rs}` only when PM_WORD_ADDRESSED
  is false (log entry 2). Safe. -/
  | oddCodeAddress (addr : Word)
deriving DecidableEq, Repr

/-- The machine right after reset, for given parameters (R41, R300).
R0..R7, SP, T, C and Z are zero: DESIGN CHOICE, log entry 20. -/
def State.resetWith (c : Config) : State where
  cfg := c
  regs := ⟨0, 0, 0, 0, 0, 0, 0, 0⟩
  sp := 0
  pc := c.resetPc
  sr := { i := c.resetI, t := false, c := false, z := false }
  pfx := none
  halted := false
  mem := []
  pmem := []
  irq := []
  draws := 0

/-- The machine right after reset, with the default parameters (R6, R41). -/
def State.reset : State := State.resetWith Config.default

end Sys2Proof.Machine
end

