-- ==== Sys2Proof/Machine/Ops.lean ====
section
/-! DEFINITION. The shared operations over registers and memories: reading and writing them, ending an instruction, the
stack, taking an interrupt and returning from one. -/

namespace Sys2Proof.Machine

/-- The three outcomes of an instruction. -/
abbrev Result := Host.Outcome State Fault Refusal

/-! ### General registers (R9, R20, R21) -/

/-- `x[i]`. -/
def Regs.get (x : Regs) : Reg → Word
  | .r0 => x.r0 | .r1 => x.r1 | .r2 => x.r2 | .r3 => x.r3
  | .r4 => x.r4 | .r5 => x.r5 | .r6 => x.r6 | .r7 => x.r7

/-- `x[i] <- v`. -/
def Regs.set (x : Regs) (r : Reg) (v : Word) : Regs :=
  match r with
  | .r0 => { x with r0 := v } | .r1 => { x with r1 := v }
  | .r2 => { x with r2 := v } | .r3 => { x with r3 := v }
  | .r4 => { x with r4 := v } | .r5 => { x with r5 := v }
  | .r6 => { x with r6 := v } | .r7 => { x with r7 := v }

/-- Read Ri. -/
def State.x (s : State) (r : Reg) : Word := s.regs.get r

/-- Write Ri. -/
def State.setX (s : State) (r : Reg) (v : Word) : State := { s with regs := s.regs.set r v }

/-! ### Sparse memories in one canonical form -/

/-- What is stored at an address, if anything is. -/
def Cells.lookup {α : Type} : List (Nat × α) → Nat → Option α
  | [], _ => none
  | (b, v) :: m, a => if a = b then some v else Cells.lookup m a

/-- Store at an address, keeping the addresses strictly rising. -/
def Cells.write {α : Type} : List (Nat × α) → Nat → α → List (Nat × α)
  | [], a, v => [(a, v)]
  | (b, u) :: m, a, v =>
    if a < b then (a, v) :: (b, u) :: m
    else if a = b then (a, v) :: m
    else (b, u) :: Cells.write m a v

/-- The canonical form: strictly rising addresses inside a 16-bit space. -/
abbrev Cells.wf {α : Type} (m : List (Nat × α)) : Prop :=
  m.Pairwise (fun p q => p.1 < q.1) ∧ ∀ p ∈ m, p.1 < 65536

/-- Data memory is in its canonical form. -/
abbrev Memory.wf (m : Memory) : Prop := Cells.wf m

/-- Program memory is in its canonical form. -/
abbrev ProgMem.wf (m : ProgMem) : Prop := Cells.wf m

/-! ### Data memory (R50 to R53, R56, R57, R63) -/

/-- DMEM_VALID(addr) (R52). -/
def State.dmemValid (s : State) (a : Word) : Bool :=
  s.cfg.dmem.any fun r => decide (r.base ≤ a.toNat) && decide (a.toNat < r.base + r.size)

/-- What the byte at an address reads as: the byte written last, or the free value of an unwritten byte (R42, R65). -/
def State.byteAt (s : State) (a : Word) : Byte :=
  match Cells.lookup s.mem a.toNat with
  | some v => v
  | none => Config.unwrittenByte a

/-- The word whose bytes at its address and at the next are `b0` and `b1` (R51). -/
def joinBytes (o : ByteOrder) (b0 b1 : Byte) : Word :=
  match o with
  | .little => b1 ++ b0
  | .big => b0 ++ b1

/-- The byte of a word that lies at its address (R51). -/
def firstByte (o : ByteOrder) (v : Word) : Byte :=
  match o with
  | .little => v.extractLsb' 0 8
  | .big => v.extractLsb' 8 8

/-- The byte of a word that lies at the next address (R51). -/
def secondByte (o : ByteOrder) (v : Word) : Byte :=
  match o with
  | .little => v.extractLsb' 8 8
  | .big => v.extractLsb' 0 8

/-- The address of the first of the two bytes that a word access touches, or its fault, the alignment before the mapping
(R52, R56, R272). -/
def State.wordBase (s : State) (a : Word) : Except Fault Word :=
  let mapped (b : Word) : Except Fault Word :=
    if s.dmemValid b && s.dmemValid (b + 1#16) then .ok b else .error (.unmappedAccess a)
  if a[0] then
    match s.cfg.misalignedWord with
    | .fault => .error (.misalignedWord a)
    | .ignoreBit0 => mapped (a &&& 0xFFFE#16)
    | .split => mapped a
  else mapped a

/-- `MemRead(addr, 1)` (R52). -/
def State.readByte (s : State) (a : Word) : Except Fault Byte :=
  if s.dmemValid a then .ok (s.byteAt a) else .error (.unmappedAccess a)

/-- `MemRead(addr, 2)` (R52). -/
def State.readWord (s : State) (a : Word) : Except Fault Word :=
  match s.wordBase a with
  | .error f => .error f
  | .ok b => .ok (joinBytes s.cfg.byteOrder (s.byteAt b) (s.byteAt (b + 1#16)))

/-- Store one byte, whatever backs the address. -/
def State.putByte (s : State) (a : Word) (v : Byte) : State :=
  { s with mem := Cells.write s.mem a.toNat v }

/-- Store the two bytes of a word at `b` and `b + 1` (R51, R53). -/
def State.putWord (s : State) (b : Word) (v : Word) : State :=
  (s.putByte b (firstByte s.cfg.byteOrder v)).putByte (b + 1#16) (secondByte s.cfg.byteOrder v)

/-- `MemWrite(addr, 1, v)` (R53). -/
def State.writeByte (s : State) (a : Word) (v : Byte) : Except Fault State :=
  if s.dmemValid a then .ok (s.putByte a v) else .error (.unmappedAccess a)

/-- `MemWrite(addr, 2, v)` (R53). -/
def State.writeWord (s : State) (a : Word) (v : Word) : Except Fault State :=
  match s.wordBase a with
  | .error f => .error f
  | .ok b => .ok (s.putWord b v)

/-! ### Program memory (R39, R54, R55, R274) -/

/-- The index of the word that a program address names: the address itself when program memory is word addressed (R39,
R54), half of an even address when it is byte addressed (D1; log entry 2). -/
def State.codeIndex (s : State) (a : Word) : Option Nat :=
  if s.cfg.pmWordAddressed then some a.toNat
  else if a[0] then none
  else some (a.toNat / 2)

/-- `ProgRead` by word index; a word that is not loaded is a free value (R42, R54; log entry 22). -/
def State.codeWord (s : State) (k : Nat) : Word :=
  match Cells.lookup s.pmem k with
  | some w => w
  | none => Config.unloadedWord k

/-- The word being executed: the one at the pc (R9, R24); the information of the faults that name a word (R270; log
entry 30). -/
def State.word (s : State) : Word :=
  match s.codeIndex s.pc with
  | some k => s.codeWord k
  | none => Config.unloadedWord (s.pc.toNat / 2)

/-- Why an instruction could not be fetched, or its word (R55). A word that is not loaded faults (R274). -/
inductive Fetched where
  | word (w : Word)
  | fault (f : Fault)
  | refused (r : Refusal)
deriving DecidableEq, Repr

/-- Instruction fetch (R55, R274). -/
def State.fetch (s : State) : Fetched :=
  match s.codeIndex s.pc with
  | none => .refused (.oddCodeAddress s.pc)
  | some k =>
    match Cells.lookup s.pmem k with
    | none => .fault (.unwrittenRead s.pc)
    | some w => .word w

/-! ### Ending an instruction (R26, R121) -/

/-- By how much one word advances the pc: 1, or 2 when program memory is byte addressed (R26, D1; log entry 2). -/
def State.pcStep (s : State) : Word := if s.cfg.pmWordAddressed then 1#16 else 2#16

/-- The address of the next instruction word, modulo 2^16 (R26, D2). -/
def State.nextPc (s : State) : Word := s.pc + s.pcStep

/-- `pfx <- none; pc <- target`. -/
def State.jumpTo (s : State) (target : Word) : State := { s with pfx := none, pc := target }

/-- `pfx <- none; pc <- pc + 1`. -/
def State.retire (s : State) : State := s.jumpTo s.nextPc

/-- An instruction with no immediate field faults when a prefix is pending (R124). -/
def State.unprefixed (s : State) (r : Result) : Result :=
  match s.pfx with
  | some _ => .fault (.prefixMisuse s.word)
  | none => r

/-- Write a register and end the instruction. -/
def State.finish (s : State) (rd : Reg) (v : Word) : Result := .next (s.setX rd v).retire

/-! ### Loads and stores (R58, R59, R200) -/

/-- `x[Rd] <- MemRead(ea, 2)`. -/
def State.loadWord (s : State) (rd : Reg) (ea : Word) : Result :=
  match s.readWord ea with
  | .error f => .fault f
  | .ok v => s.finish rd v

/-- `x[Rd] <- zext_8(MemRead(ea, 1))` (R59). -/
def State.loadZeroByte (s : State) (rd : Reg) (ea : Word) : Result :=
  match s.readByte ea with
  | .error f => .fault f
  | .ok b => s.finish rd (b.zeroExtend 16)

/-- `x[Rd] <- sext_8(MemRead(ea, 1))` (R59). -/
def State.loadSignByte (s : State) (rd : Reg) (ea : Word) : Result :=
  match s.readByte ea with
  | .error f => .fault f
  | .ok b => s.finish rd (b.signExtend 16)

/-- `MemWrite(ea, 2, x[Rd])`. -/
def State.storeWord (s : State) (rd : Reg) (ea : Word) : Result :=
  match s.writeWord ea (s.x rd) with
  | .error f => .fault f
  | .ok t => .next t.retire

/-- `MemWrite(ea, 1, x[Rd][7:0])` (R59). -/
def State.storeByte (s : State) (rd : Reg) (ea : Word) : Result :=
  match s.writeByte ea ((s.x rd).extractLsb' 0 8) with
  | .error f => .fault f
  | .ok t => .next t.retire

/-! ### The stack (R70) -/

/-- `SP <- SP - 2; MemWrite(SP, 2, v)`. -/
def State.push (s : State) (v : Word) : Except Fault State :=
  match s.writeWord (s.sp - 2#16) v with
  | .error f => .error f
  | .ok t => .ok { t with sp := s.sp - 2#16 }

/-- `v <- MemRead(SP, 2); SP <- SP + 2`: the word and the state without it. -/
def State.pop (s : State) : Except Fault (Word × State) :=
  match s.readWord s.sp with
  | .error f => .error f
  | .ok v => .ok (v, { s with sp := s.sp + 2#16 })

/-- Push the address of the next word and go to `target` (R244, R245). -/
def State.callTo (s : State) (target : Word) : Result :=
  match s.push s.nextPc with
  | .error f => .fault f
  | .ok t => .next (t.jumpTo target)

/-- Pop an address and go there (R246). -/
def State.returnTo (s : State) : Result :=
  match s.pop with
  | .error f => .fault f
  | .ok (ra, t) => .next (t.jumpTo ra)

/-! ### Interrupts (R276 to R282) -/

/-- The level of the request input at this boundary (R276). -/
def State.irqNow (s : State) : Bool := s.irq.headD false

/-- The state once the request input has been sampled. -/
def State.sampled (s : State) : State := { s with irq := s.irq.tail }

/-- The acceptance test (R277). -/
def State.accepts (s : State) : Bool :=
  s.irqNow && s.sr.i && s.pfx.isNone && !s.halted

/-- The flag image: bit 3 = I, bit 2 = T, bit 1 = C, bit 0 = Z, the rest zero (R279). -/
def flagImage (f : SR) : Word :=
  0#12 ++ BitVec.ofBool f.i ++ BitVec.ofBool f.t ++ BitVec.ofBool f.c ++ BitVec.ofBool f.z

/-- The flags of an image; bits 15:4 are ignored (R280). -/
def flagsOfImage (w : Word) : SR where
  i := w[3]
  t := w[2]
  c := w[1]
  z := w[0]

/-- Interrupt entry under IRQ_MODEL = stack: push the pc, push the flag image, clear I, go to the handler (R279). -/
def State.enterInterrupt (s : State) (vector : Word) : Result :=
  match s.push s.pc with
  | .error f => .fault f
  | .ok t =>
    match t.push (flagImage s.sr) with
    | .error f => .fault f
    | .ok u => .next { u with sr := { s.sr with i := false }, pc := vector }

/-- What acceptance does, by IRQ_MODEL (R278, R279). -/
def State.takeInterrupt (s : State) : Result :=
  match s.cfg.irqModel with
  | .refuse => .fault (.interruptUnspecified .request)
  | .stack vector => s.enterInterrupt vector

/-- The return under IRQ_MODEL = stack: pop the flag image, pop the pc (R280). -/
def State.leaveInterrupt (s : State) : Result :=
  match s.pop with
  | .error f => .fault f
  | .ok (img, t) =>
    match t.pop with
    | .error f => .fault f
    | .ok (ra, u) => .next ({ u with sr := flagsOfImage img }.jumpTo ra)

/-! ### Opcode slots without an instruction (R97, R98) -/

/-- A reserved slot (R97); checked before any pending prefix (R272). -/
def State.reservedSlot (s : State) : Result := .fault (.reservedInstruction s.word)

/-- A not-implemented slot (R98); checked before any pending prefix (R272). -/
def State.unimplementedSlot (s : State) : Result := .fault (.notImplemented s.word)

/-! ### The launch state of a run (R303) -/

/-- A value that a run is given before it starts, for a register of the register table of 10_state.md (R0..R7, SP, PC) or
for the flags (R303). -/
inductive Preset where
  | x (r : Reg) (v : Word)
  | sp (v : Word)
  | pc (v : Word)
  | sr (f : SR)
deriving DecidableEq, Repr

/-- Place one initial register value. -/
def State.preset (s : State) : Preset → State
  | .x r v => s.setX r v
  | .sp v => { s with sp := v }
  | .pc v => { s with pc := v }
  | .sr f => { s with sr := f }

/-- Place initial bytes of data memory, in order. -/
def State.putBytes (s : State) (bytes : List (Word × Byte)) : State :=
  bytes.foldl (fun t p => t.putByte p.1 p.2) s

/-- The reset state with what the loader places from outside: the program image, data bytes, and register values; what is
not given stays as reset leaves it (R303). -/
def State.launch (c : Config) (image : ProgMem) (bytes : List (Word × Byte)) (presets : List Preset) : State :=
  presets.foldl State.preset (State.putBytes { State.resetWith c with pmem := image } bytes)

/-- A program image: words at rising indices from `at0` on (R303). -/
def ProgMem.ofWords (at0 : Nat) : List Word → ProgMem
  | [] => []
  | w :: ws => (at0, w) :: ProgMem.ofWords (at0 + 1) ws

end Sys2Proof.Machine
end

