-- ==== Sys2Proof/Machine/Flags.lean ====
section
/-! DEFINITION. The adder and every flag computation: SetCZT and ChainZ (R11), the carry of subtractions (R10, D9), the
open flags of logic and shifts (D11, D12), and the condition of a compare (R171). -/

namespace Sys2Proof.Machine

/-- What ADD17 gives: result, carry, zero, sign, overflow (R10). -/
structure Sum where
  r : Word
  c : Bool
  z : Bool
  s : Bool
  v : Bool
deriving DecidableEq, Repr

/-- `ADD17(a, b, cin)` (R10). -/
def add17 (a b : Word) (cin : Bool) : Sum :=
  let t : BitVec 17 := a.zeroExtend 17 + b.zeroExtend 17 + (BitVec.ofBool cin).zeroExtend 17
  let r : Word := t.extractLsb' 0 16
  { r := r
    c := t[16]
    z := r == 0#16
    s := r[15]
    v := a[15] == b[15] && r[15] != a[15] }

/-- `SetCZT(c, z)` (R11). -/
def setCZT (f : SR) (c z : Bool) : SR := { f with c := c, z := z, t := z }

/-- `ChainZ(z)` (R11, D10). -/
def State.chainZ (s : State) (z : Bool) : Bool := if s.cfg.zChain then s.sr.z && z else z

/-- The C that a subtraction stores for the adder's carry-out: the carry-out itself, or the borrow (R10, R135, D9). -/
def State.subCarry (s : State) (c : Bool) : Bool := if s.cfg.subCIsNotBorrow then c else !c

/-- The carry into subc and cmpc: C, or 1 - C (R135, D9). -/
def State.subCarryIn (s : State) : Bool := if s.cfg.subCIsNotBorrow then s.sr.c else !s.sr.c

/-- Write a sum to Rd, set C, Z and T, and end the instruction (R11). -/
def State.finishCZT (s : State) (rd : Reg) (r : Word) (c z : Bool) : Result :=
  State.finish { s with sr := setCZT s.sr c z } rd r

/-- An addition without carry-in (R130, R131). -/
def State.addition (s : State) (rd : Reg) (a b : Word) : Result :=
  let u := add17 a b false
  s.finishCZT rd u.r u.c u.z

/-- An addition with carry-in: Z is chained (R132). -/
def State.additionC (s : State) (rd : Reg) (a b : Word) : Result :=
  let u := add17 a b s.sr.c
  s.finishCZT rd u.r u.c (s.chainZ u.z)

/-- A subtraction without carry-in (R133, R134, R136). -/
def State.subtraction (s : State) (rd : Reg) (a b : Word) : Result :=
  let u := add17 a (~~~b) true
  s.finishCZT rd u.r (s.subCarry u.c) u.z

/-- A subtraction with carry-in: Z is chained (R135). -/
def State.subtractionC (s : State) (rd : Reg) (a b : Word) : Result :=
  let u := add17 a (~~~b) s.subCarryIn
  s.finishCZT rd u.r (s.subCarry u.c) (s.chainZ u.z)

/-- The end of and, or, xor, not: Z and T from the result, C a free value (R143 to R147, D11; log entry 12). -/
def State.finishLogic (s : State) (rd : Reg) (a b r : Word) : Result :=
  State.finish
    { s with sr := setCZT s.sr (Config.logicC s.draws s.sr a b r) (r == 0#16), draws := s.draws + 1 } rd r

/-- The end of lsr, asr, lsrc: C the bit shifted out, Z and T free values (R148 to R150, D12; log entry 13). -/
def State.finishShift (s : State) (rd : Reg) (a r : Word) : Result :=
  State.finish
    { s with
      sr := { s.sr with c := a[0], z := Config.shiftZ s.draws s.sr a r, t := Config.shiftT s.draws s.sr a r }
      draws := s.draws + 1 } rd r

/-- The condition-code table (R170): the flags expression of each code. -/
def condHolds (cc : Cond) (c z s v : Bool) : Bool :=
  match cc with
  | .eq => z
  | .ne => !z
  | .uge => c
  | .ult => !c
  | .ge => s == v
  | .lt => s != v
  | .ugt => c && !z
  | .gt => (s == v) && !z

/-- `COND(cc)` of `a - b - (1 - cin)` with the zero input `zin` (R171). -/
def compareHolds (cc : Cond) (a b : Word) (cin zin : Bool) : Bool :=
  let u := add17 a (~~~b) cin
  condHolds cc u.c (u.z && zin) u.s u.v

/-- A compare writes T and nothing else (R172, R174, C1). -/
def State.cmp (s : State) (cc : Cond) (a b : Word) : Result :=
  .next (State.retire { s with sr := { s.sr with t := compareHolds cc a b true true } })

/-- A compare with carry: C and the chained Z go in, T comes out (R173, R175). -/
def State.cmpc (s : State) (cc : Cond) (a b : Word) : Result :=
  .next (State.retire { s with sr := { s.sr with t := compareHolds cc a b s.subCarryIn (s.chainZ true) } })

end Sys2Proof.Machine
end

