-- ==== Sys2Proof/Machine/Operands.lean ====
section
/-! DEFINITION. The operand forms: the effective immediate (R121) with each un-prefixed extension (R101), and the
effective addresses of the addressing modes (R200). -/

namespace Sys2Proof.Machine

/-- The 16-bit value that a pending prefix makes: `(p << 5) | raw[4:0]` (R121). -/
def prefixed {n : Nat} (p : BitVec 11) (raw : BitVec n) : Word :=
  (p.zeroExtend 16 <<< 5) ||| (raw.extractLsb' 0 5).zeroExtend 16

/-- `IMM(raw, N, zext)` (R121). -/
def State.immZ {n : Nat} (s : State) (raw : BitVec n) : Word :=
  match s.pfx with
  | some p => prefixed p raw
  | none => raw.zeroExtend 16

/-- `IMM(raw, N, sext)` (R121). -/
def State.immS {n : Nat} (s : State) (raw : BitVec n) : Word :=
  match s.pfx with
  | some p => prefixed p raw
  | none => raw.signExtend 16

/-- `[Rs, K]`: Rs plus the zero-extended imm5 (R200, D8). -/
def State.eaRegImm (s : State) (rs : Reg) (k : BitVec 5) : Word := s.x rs + s.immZ k

/-- `[&A]`: the zero-extended imm8 (R200, D8). -/
def State.eaAbs (s : State) (k : BitVec 8) : Word := s.immZ k

/-- `[SP, K]`: SP plus the zero-extended imm8 (R200, D8). -/
def State.eaStack (s : State) (k : BitVec 8) : Word := s.sp + s.immZ k

/-- `[Rs, Rn]`: Rs plus Rn (R200). -/
def State.eaRegReg (s : State) (rs rn : Reg) : Word := s.x rs + s.x rn

/-- A PC-relative target: the branch word's own address, plus BR_BASE, plus the sign-extended imm9 (R240, D3).
DESIGN CHOICE under PM_WORD_ADDRESSED = false (log entry 2): the offset is added unscaled there as well, so it counts bytes,
where R240's "counts instruction words" and its "no scaling" cannot both hold. -/
def State.relTarget (s : State) (k : BitVec 9) : Word := s.pc + s.cfg.brBase + s.immS k

end Sys2Proof.Machine
end

