-- ==== Sys2Proof/Machine/Arith.lean ====
section
/-! DEFINITION. Arithmetic, logic and shifts (41_arithmetic_logic.md). The formats R3 and R2 have no immediate field and fault with a
prefix pending (R124). -/

namespace Sys2Proof.Machine

/-- `add Rd, K, Rd` (R130). -/
def execAddKr (rd : Reg) (k : BitVec 8) (s : State) : Result :=
  s.addition rd (s.x rd) (s.immZ k)

/-- `add Rs, Rn, Rd` (R131). -/
def execAddRrr (rs : Reg) (rn : Reg) (rd : Reg) (s : State) : Result :=
  s.unprefixed (s.addition rd (s.x rs) (s.x rn))

/-- `addc Rs, Rn, Rd` (R132). -/
def execAdcRrr (rs : Reg) (rn : Reg) (rd : Reg) (s : State) : Result :=
  s.unprefixed (s.additionC rd (s.x rs) (s.x rn))

/-- `sub Rd, K, Rd` (R133). -/
def execSubKr (rd : Reg) (k : BitVec 8) (s : State) : Result :=
  s.subtraction rd (s.x rd) (s.immZ k)

/-- `sub Rs, Rn, Rd` (R134). -/
def execSubRrr (rs : Reg) (rn : Reg) (rd : Reg) (s : State) : Result :=
  s.unprefixed (s.subtraction rd (s.x rs) (s.x rn))

/-- `subc Rs, Rn, Rd` (R135). -/
def execSubcRrr (rs : Reg) (rn : Reg) (rd : Reg) (s : State) : Result :=
  s.unprefixed (s.subtractionC rd (s.x rs) (s.x rn))

/-- `neg Rs, Rd` (R136). -/
def execNegRr (rs : Reg) (rd : Reg) (s : State) : Result :=
  s.unprefixed (s.subtraction rd 0#16 (s.x rs))

/-- `lea Rs, K, Rd` (R137); no flags (D13). -/
def execLeaMr (rs : Reg) (k : BitVec 5) (rd : Reg) (s : State) : Result :=
  s.finish rd (s.x rs + s.immZ k)

/-- `lea SP, K, Rd` (R138); no flags (D13). -/
def execLeaQr (k : BitVec 8) (rd : Reg) (s : State) : Result :=
  s.finish rd (s.sp + s.immZ k)

/-- `add SP, K, SP` (R139); no flags (D13). -/
def execAddKq (k : BitVec 9) (s : State) : Result :=
  .next (State.retire { s with sp := s.sp + s.immS k })

/-- `zext Rs, Rd` (R140); no flags (D13). -/
def execZextRr (rs : Reg) (rd : Reg) (s : State) : Result :=
  s.unprefixed (s.finish rd (((s.x rs).extractLsb' 0 8).zeroExtend 16))

/-- `sext Rs, Rd` (R141); no flags (D13). -/
def execSextRr (rs : Reg) (rd : Reg) (s : State) : Result :=
  s.unprefixed (s.finish rd (((s.x rs).extractLsb' 0 8).signExtend 16))

/-- `sextw Rs, Rd` (R142); no flags (D13). -/
def execSextwRr (rs : Reg) (rd : Reg) (s : State) : Result :=
  s.unprefixed (s.finish rd (if (s.x rs)[15] then 0xFFFF#16 else 0x0000#16))

/-- `and Rs, K, Rd` (R143); Rd <- Rs & K (C4). -/
def execAndKr (rs : Reg) (k : BitVec 5) (rd : Reg) (s : State) : Result :=
  s.finishLogic rd (s.x rs) (s.immZ k) (s.x rs &&& s.immZ k)

/-- `and Rs, Rn, Rd` (R144). -/
def execAndRrr (rs : Reg) (rn : Reg) (rd : Reg) (s : State) : Result :=
  s.unprefixed (s.finishLogic rd (s.x rs) (s.x rn) (s.x rs &&& s.x rn))

/-- `or Rs, Rn, Rd` (R145). -/
def execOrRrr (rs : Reg) (rn : Reg) (rd : Reg) (s : State) : Result :=
  s.unprefixed (s.finishLogic rd (s.x rs) (s.x rn) (s.x rs ||| s.x rn))

/-- `xor Rs, Rn, Rd` (R146). -/
def execXorRrr (rs : Reg) (rn : Reg) (rd : Reg) (s : State) : Result :=
  s.unprefixed (s.finishLogic rd (s.x rs) (s.x rn) (s.x rs ^^^ s.x rn))

/-- `not Rs, Rd` (R147). -/
def execNotRr (rs : Reg) (rd : Reg) (s : State) : Result :=
  s.unprefixed (s.finishLogic rd (s.x rs) 0#16 (~~~(s.x rs)))

/-- `lsr Rs, Rd` (R148). -/
def execLsrRr (rs : Reg) (rd : Reg) (s : State) : Result :=
  s.unprefixed (s.finishShift rd (s.x rs) (s.x rs >>> 1))

/-- `asr Rs, Rd` (R149). -/
def execAsrRr (rs : Reg) (rd : Reg) (s : State) : Result :=
  s.unprefixed (s.finishShift rd (s.x rs) ((s.x rs).sshiftRight 1))

/-- `lsrc Rs, Rd` (R150). -/
def execLsrcRr (rs : Reg) (rd : Reg) (s : State) : Result :=
  s.unprefixed (s.finishShift rd (s.x rs) (BitVec.ofBool s.sr.c ++ (s.x rs).extractLsb' 1 15))

end Sys2Proof.Machine
end

