-- ==== Sys2Proof/Machine/Branch.lean ====
section
/-! DEFINITION. Branches, jumps, calls and return (45_branch.md). -/

namespace Sys2Proof.Machine

/-- `brncc Label` (R240); reads T. -/
def execBrNt (k : BitVec 9) (s : State) : Result :=
  .next (s.jumpTo (if s.sr.t then s.nextPc else s.relTarget k))

/-- `brcc Label` (R241); reads T. -/
def execBrT (k : BitVec 9) (s : State) : Result :=
  .next (s.jumpTo (if s.sr.t then s.relTarget k else s.nextPc))

/-- `jmp Label` (R242). -/
def execJmpK (k : BitVec 9) (s : State) : Result :=
  .next (s.jumpTo (s.relTarget k))

/-- `jmp Rd` (R243). -/
def execJmpR (rd : Reg) (s : State) : Result :=
  s.unprefixed (.next (s.jumpTo (s.x rd)))

/-- `call &Label` (R244); an absolute target (D4). -/
def execCall (k : BitVec 11) (s : State) : Result :=
  s.callTo (s.immZ k)

/-- `call Rd` (R245). -/
def execCallR (rd : Reg) (s : State) : Result :=
  s.unprefixed (s.callTo (s.x rd))

/-- `ret` (R246). -/
def execRet (s : State) : Result :=
  s.unprefixed (s.returnTo)

end Sys2Proof.Machine
end

