-- ==== Sys2Proof/Machine/Compare.lean ====
section
/-! DEFINITION. Compares (42_compare.md): they write T and nothing else (C1). -/

namespace Sys2Proof.Machine

/-- `cmp.cc Rs, K` (R172). -/
def execCmpRkc (cc : Cond) (rs : Reg) (k : BitVec 5) (s : State) : Result :=
  s.cmp cc (s.x rs) (s.immS k)

/-- `cmpc.cc Rs, K` (R173). -/
def execCmpcRkc (cc : Cond) (rs : Reg) (k : BitVec 5) (s : State) : Result :=
  s.cmpc cc (s.x rs) (s.immS k)

/-- `cmp.cc Rs, Rn` (R174). -/
def execCmpRrc (cc : Cond) (rs : Reg) (rn : Reg) (s : State) : Result :=
  s.unprefixed (s.cmp cc (s.x rs) (s.x rn))

/-- `cmpc.cc Rs, Rn` (R175). -/
def execCmpcRrc (cc : Cond) (rs : Reg) (rn : Reg) (s : State) : Result :=
  s.unprefixed (s.cmpc cc (s.x rs) (s.x rn))

end Sys2Proof.Machine
end

