-- ==== Sys2Proof/Machine/LoadStore.lean ====
section
/-! DEFINITION. Loads and stores (44_memory_access.md); none writes a flag or its base register (R200). -/

namespace Sys2Proof.Machine

/-- `ld.w [Rs, K], Rd` (R201). -/
def execMovwMr (rs : Reg) (k : BitVec 5) (rd : Reg) (s : State) : Result :=
  s.loadWord rd (s.eaRegImm rs k)

/-- `ld.zb [Rs, K], Rd` (R202). -/
def execMovzbMr (rs : Reg) (k : BitVec 5) (rd : Reg) (s : State) : Result :=
  s.loadZeroByte rd (s.eaRegImm rs k)

/-- `ld.sb [Rs, K], Rd` (R203). -/
def execMovsbMr (rs : Reg) (k : BitVec 5) (rd : Reg) (s : State) : Result :=
  s.loadSignByte rd (s.eaRegImm rs k)

/-- `st.w Rd, [Rs, K]` (R204). -/
def execMovwRm (rd : Reg) (rs : Reg) (k : BitVec 5) (s : State) : Result :=
  s.storeWord rd (s.eaRegImm rs k)

/-- `st.b Rd, [Rs, K]` (R205). -/
def execMovbRm (rd : Reg) (rs : Reg) (k : BitVec 5) (s : State) : Result :=
  s.storeByte rd (s.eaRegImm rs k)

/-- `ld.w [&A], Rd` (R206). -/
def execMovwAr (k : BitVec 8) (rd : Reg) (s : State) : Result :=
  s.loadWord rd (s.eaAbs k)

/-- `ld.sb [&A], Rd` (R207). -/
def execMovsbAr (k : BitVec 8) (rd : Reg) (s : State) : Result :=
  s.loadSignByte rd (s.eaAbs k)

/-- `st.w Rd, [&A]` (R208). -/
def execMovwRa (rd : Reg) (k : BitVec 8) (s : State) : Result :=
  s.storeWord rd (s.eaAbs k)

/-- `st.b Rd, [&A]` (R209). -/
def execMovbRa (rd : Reg) (k : BitVec 8) (s : State) : Result :=
  s.storeByte rd (s.eaAbs k)

/-- `ld.w [SP, K], Rd` (R210). -/
def execMovwQr (k : BitVec 8) (rd : Reg) (s : State) : Result :=
  s.loadWord rd (s.eaStack k)

/-- `ld.sb [SP, K], Rd` (R211). -/
def execMovsbQr (k : BitVec 8) (rd : Reg) (s : State) : Result :=
  s.loadSignByte rd (s.eaStack k)

/-- `st.w Rd, [SP, K]` (R212). -/
def execMovwRq (rd : Reg) (k : BitVec 8) (s : State) : Result :=
  s.storeWord rd (s.eaStack k)

/-- `st.b Rd, [SP, K]` (R213). -/
def execMovbRq (rd : Reg) (k : BitVec 8) (s : State) : Result :=
  s.storeByte rd (s.eaStack k)

/-- `ld.w [Rs, Rn], Rd` (R214). -/
def execMovwNr (rs : Reg) (rn : Reg) (rd : Reg) (s : State) : Result :=
  s.unprefixed (s.loadWord rd (s.eaRegReg rs rn))

/-- `ld.zb [Rs, Rn], Rd` (R215). -/
def execMovzbNr (rs : Reg) (rn : Reg) (rd : Reg) (s : State) : Result :=
  s.unprefixed (s.loadZeroByte rd (s.eaRegReg rs rn))

/-- `ld.sb [Rs, Rn], Rd` (R216). -/
def execMovsbNr (rs : Reg) (rn : Reg) (rd : Reg) (s : State) : Result :=
  s.unprefixed (s.loadSignByte rd (s.eaRegReg rs rn))

/-- `st.w Rd, [Rs, Rn]` (R217). -/
def execMovwRn (rd : Reg) (rs : Reg) (rn : Reg) (s : State) : Result :=
  s.unprefixed (s.storeWord rd (s.eaRegReg rs rn))

/-- `st.b Rd, [Rs, Rn]` (R218). -/
def execMovbRn (rd : Reg) (rs : Reg) (rn : Reg) (s : State) : Result :=
  s.unprefixed (s.storeByte rd (s.eaRegReg rs rn))

/-- `ld.w {Rs}, Rd` (R219); a program-memory word address (D1). -/
def execMovwPr (rs : Reg) (rd : Reg) (s : State) : Result :=
  s.unprefixed <|
    match s.codeIndex (s.x rs) with
    | none => .refused (.oddCodeAddress (s.x rs))
    | some k => s.finish rd (s.codeWord k)

end Sys2Proof.Machine
end

