-- ==== Sys2Proof/Machine/Move.lean ====
section
/-! DEFINITION. Moves, byte swap, select and set (43_moves.md); none writes a flag (D13). -/

namespace Sys2Proof.Machine

/-- `mov K, Rd` (R185). -/
def execMovKr (k : BitVec 8) (rd : Reg) (s : State) : Result :=
  s.finish rd (s.immS k)

/-- `mov Rs, Rd` (R186). -/
def execMovRr (rs : Reg) (rd : Reg) (s : State) : Result :=
  s.unprefixed (s.finish rd (s.x rs))

/-- `mov Rs, SP` (R187). -/
def execMovRq (rs : Reg) (s : State) : Result :=
  s.unprefixed (.next (State.retire { s with sp := s.x rs }))

/-- `bswap Rs, Rd` (R188). -/
def execBswapRr (rs : Reg) (rd : Reg) (s : State) : Result :=
  s.unprefixed (s.finish rd ((s.x rs).extractLsb' 0 8 ++ (s.x rs).extractLsb' 8 8))

/-- `selcc Rs, Rn, Rd` (R189); reads T. -/
def execSelRrr (rs : Reg) (rn : Reg) (rd : Reg) (s : State) : Result :=
  s.unprefixed (s.finish rd (if s.sr.t then s.x rs else s.x rn))

/-- `setcc Rd` (R190); reads T. -/
def execSet1r (rd : Reg) (s : State) : Result :=
  s.unprefixed (s.finish rd (if s.sr.t then 1#16 else 0#16))

end Sys2Proof.Machine
end

