-- ==== Sys2Proof/Machine/Prefix.lean ====
section
/-! DEFINITION. The prefix instruction (40_prefix.md). -/

namespace Sys2Proof.Machine

/-- `pfix_k` (R120); sets the pending prefix; faults when one is pending (R124). -/
def execPfixK (k : BitVec 11) (s : State) : Result :=
  match s.pfx with
  | some _ => .fault (.prefixMisuse s.word)
  | none => .next { s with pfx := some k, pc := s.nextPc }

end Sys2Proof.Machine
end

