-- ==== Sys2Proof/Machine/Slots.lean ====
section
/-! DEFINITION. The opcode slots without an instruction: reserved (R97) and not implemented (R98). The fault
comes before any check of a pending prefix (R272). -/

namespace Sys2Proof.Machine

/-- The reserved slot 11010 of format I2 (R97). -/
def execReservedI2_11010 (s : State) : Result :=
  s.reservedSlot

/-- The reserved slot 10110 of format R3 (R97). -/
def execReservedR3_10110 (s : State) : Result :=
  s.reservedSlot

/-- The reserved slot 10111 of format R3 (R97). -/
def execReservedR3_10111 (s : State) : Result :=
  s.reservedSlot

/-- The reserved slot 11001 of format R3 (R97). -/
def execReservedR3_11001 (s : State) : Result :=
  s.reservedSlot

/-- The reserved slot 11010 of format R3 (R97). -/
def execReservedR3_11010 (s : State) : Result :=
  s.reservedSlot

/-- The reserved slot 11011 of format R3 (R97). -/
def execReservedR3_11011 (s : State) : Result :=
  s.reservedSlot

/-- The reserved slot 00110 of format R2 (R97). -/
def execReservedR2_00110 (s : State) : Result :=
  s.reservedSlot

/-- The reserved slot 01011 of format R2 (R97). -/
def execReservedR2_01011 (s : State) : Result :=
  s.reservedSlot

/-- The reserved slot 01100 of format R2 (R97). -/
def execReservedR2_01100 (s : State) : Result :=
  s.reservedSlot

/-- The reserved slot 01111 of format R2 (R97). -/
def execReservedR2_01111 (s : State) : Result :=
  s.reservedSlot

/-- `setcc Rs, Rd`, not implemented (R191). -/
def execSetRr (_rs : Reg) (_rd : Reg) (s : State) : Result :=
  s.unimplementedSlot

/-- The reserved slot 10100 of format R2 (R97). -/
def execReservedR2_10100 (s : State) : Result :=
  s.reservedSlot

/-- The reserved slot 10101 of format R2 (R97). -/
def execReservedR2_10101 (s : State) : Result :=
  s.reservedSlot

/-- `mov SR, Rd`, not implemented (R192). -/
def execMovSr (_rd : Reg) (s : State) : Result :=
  s.unimplementedSlot

/-- `mov Rd, SR`, not implemented (R193). -/
def execMovRs (_rd : Reg) (s : State) : Result :=
  s.unimplementedSlot

/-- The reserved slot 11101 of format R2 (R97). -/
def execReservedR2_11101 (s : State) : Result :=
  s.reservedSlot

/-- The reserved slot 11110 of format R2 (R97). -/
def execReservedR2_11110 (s : State) : Result :=
  s.reservedSlot

/-- The reserved slot 11111 of format R2 (R97). -/
def execReservedR2_11111 (s : State) : Result :=
  s.reservedSlot

end Sys2Proof.Machine
end

