-- ==== Sys2Proof/Machine/System.lean ====
section
/-! DEFINITION. Interrupt control and halt (46_system.md). -/

namespace Sys2Proof.Machine

/-- `dint` (R255). -/
def execDint (s : State) : Result :=
  s.unprefixed (.next (State.retire { s with sr := { s.sr with i := false } }))

/-- `eint` (R256). -/
def execEint (s : State) : Result :=
  s.unprefixed (.next (State.retire { s with sr := { s.sr with i := true } }))

/-- `reti` (R257); by IRQ_MODEL; the return itself is R280 (D19). -/
def execReti (s : State) : Result :=
  s.unprefixed <|
    match s.cfg.irqModel with
    | .refuse => .fault (.interruptUnspecified (.reti s.word))
    | .stack _ => s.leaveInterrupt

/-- `halt` (R258). -/
def execHalt (s : State) : Result :=
  s.unprefixed (.next (State.retire { s with halted := true }))

end Sys2Proof.Machine
end

