-- ==== Sys2Proof/Machine/Dispatch.lean ====
section
/-! DEFINITION. The meaning of each instruction: one arm for each row of spec/opcode_table.json, in the table's order. -/

namespace Sys2Proof.Machine

/-- The outcome of one instruction, executed at the state's pc with the state's pending prefix (R9, R12). -/
def exec (i : Instr) (s : State) : Host.Outcome State Fault Refusal :=
  match i with
  | .lea_mr rs k rd => Sys2Proof.Machine.execLeaMr rs k rd s
  | .movw_mr rs k rd => Sys2Proof.Machine.execMovwMr rs k rd s
  | .movzb_mr rs k rd => Sys2Proof.Machine.execMovzbMr rs k rd s
  | .movsb_mr rs k rd => Sys2Proof.Machine.execMovsbMr rs k rd s
  | .movw_rm rd rs k => Sys2Proof.Machine.execMovwRm rd rs k s
  | .movb_rm rd rs k => Sys2Proof.Machine.execMovbRm rd rs k s
  | .reserved_I2_11010 => Sys2Proof.Machine.execReservedI2_11010 s
  | .and_kr rs k rd => Sys2Proof.Machine.execAndKr rs k rd s
  | .cmp_rkc cc rs k => Sys2Proof.Machine.execCmpRkc cc rs k s
  | .cmpc_rkc cc rs k => Sys2Proof.Machine.execCmpcRkc cc rs k s
  | .call k => Sys2Proof.Machine.execCall k s
  | .pfix_k k => Sys2Proof.Machine.execPfixK k s
  | .mov_kr k rd => Sys2Proof.Machine.execMovKr k rd s
  | .add_kr rd k => Sys2Proof.Machine.execAddKr rd k s
  | .sub_kr rd k => Sys2Proof.Machine.execSubKr rd k s
  | .movw_ar k rd => Sys2Proof.Machine.execMovwAr k rd s
  | .movsb_ar k rd => Sys2Proof.Machine.execMovsbAr k rd s
  | .movw_ra rd k => Sys2Proof.Machine.execMovwRa rd k s
  | .movb_ra rd k => Sys2Proof.Machine.execMovbRa rd k s
  | .lea_qr k rd => Sys2Proof.Machine.execLeaQr k rd s
  | .movw_qr k rd => Sys2Proof.Machine.execMovwQr k rd s
  | .movsb_qr k rd => Sys2Proof.Machine.execMovsbQr k rd s
  | .movw_rq rd k => Sys2Proof.Machine.execMovwRq rd k s
  | .movb_rq rd k => Sys2Proof.Machine.execMovbRq rd k s
  | .cmp_rrc cc rs rn => Sys2Proof.Machine.execCmpRrc cc rs rn s
  | .cmpc_rrc cc rs rn => Sys2Proof.Machine.execCmpcRrc cc rs rn s
  | .sub_rrr rs rn rd => Sys2Proof.Machine.execSubRrr rs rn rd s
  | .subc_rrr rs rn rd => Sys2Proof.Machine.execSubcRrr rs rn rd s
  | .or_rrr rs rn rd => Sys2Proof.Machine.execOrRrr rs rn rd s
  | .and_rrr rs rn rd => Sys2Proof.Machine.execAndRrr rs rn rd s
  | .xor_rrr rs rn rd => Sys2Proof.Machine.execXorRrr rs rn rd s
  | .adc_rrr rs rn rd => Sys2Proof.Machine.execAdcRrr rs rn rd s
  | .add_rrr rs rn rd => Sys2Proof.Machine.execAddRrr rs rn rd s
  | .movw_nr rs rn rd => Sys2Proof.Machine.execMovwNr rs rn rd s
  | .movzb_nr rs rn rd => Sys2Proof.Machine.execMovzbNr rs rn rd s
  | .movsb_nr rs rn rd => Sys2Proof.Machine.execMovsbNr rs rn rd s
  | .movw_rn rd rs rn => Sys2Proof.Machine.execMovwRn rd rs rn s
  | .movb_rn rd rs rn => Sys2Proof.Machine.execMovbRn rd rs rn s
  | .reserved_R3_10110 => Sys2Proof.Machine.execReservedR3_10110 s
  | .reserved_R3_10111 => Sys2Proof.Machine.execReservedR3_10111 s
  | .sel_rrr rs rn rd => Sys2Proof.Machine.execSelRrr rs rn rd s
  | .reserved_R3_11001 => Sys2Proof.Machine.execReservedR3_11001 s
  | .reserved_R3_11010 => Sys2Proof.Machine.execReservedR3_11010 s
  | .reserved_R3_11011 => Sys2Proof.Machine.execReservedR3_11011 s
  | .br_nt k => Sys2Proof.Machine.execBrNt k s
  | .br_t k => Sys2Proof.Machine.execBrT k s
  | .jmp_k k => Sys2Proof.Machine.execJmpK k s
  | .add_kq k => Sys2Proof.Machine.execAddKq k s
  | .mov_rr rs rd => Sys2Proof.Machine.execMovRr rs rd s
  | .mov_rq rs => Sys2Proof.Machine.execMovRq rs s
  | .zext_rr rs rd => Sys2Proof.Machine.execZextRr rs rd s
  | .sext_rr rs rd => Sys2Proof.Machine.execSextRr rs rd s
  | .bswap_rr rs rd => Sys2Proof.Machine.execBswapRr rs rd s
  | .sextw_rr rs rd => Sys2Proof.Machine.execSextwRr rs rd s
  | .reserved_R2_00110 => Sys2Proof.Machine.execReservedR2_00110 s
  | .movw_pr rs rd => Sys2Proof.Machine.execMovwPr rs rd s
  | .lsr_rr rs rd => Sys2Proof.Machine.execLsrRr rs rd s
  | .lsrc_rr rs rd => Sys2Proof.Machine.execLsrcRr rs rd s
  | .asr_rr rs rd => Sys2Proof.Machine.execAsrRr rs rd s
  | .reserved_R2_01011 => Sys2Proof.Machine.execReservedR2_01011 s
  | .reserved_R2_01100 => Sys2Proof.Machine.execReservedR2_01100 s
  | .neg_rr rs rd => Sys2Proof.Machine.execNegRr rs rd s
  | .not_rr rs rd => Sys2Proof.Machine.execNotRr rs rd s
  | .reserved_R2_01111 => Sys2Proof.Machine.execReservedR2_01111 s
  | .jmp_r rd => Sys2Proof.Machine.execJmpR rd s
  | .call_r rd => Sys2Proof.Machine.execCallR rd s
  | .set_1r rd => Sys2Proof.Machine.execSet1r rd s
  | .set_rr rs rd => Sys2Proof.Machine.execSetRr rs rd s
  | .reserved_R2_10100 => Sys2Proof.Machine.execReservedR2_10100 s
  | .reserved_R2_10101 => Sys2Proof.Machine.execReservedR2_10101 s
  | .mov_sr rd => Sys2Proof.Machine.execMovSr rd s
  | .mov_rs rd => Sys2Proof.Machine.execMovRs rd s
  | .ret => Sys2Proof.Machine.execRet s
  | .reti => Sys2Proof.Machine.execReti s
  | .dint => Sys2Proof.Machine.execDint s
  | .eint => Sys2Proof.Machine.execEint s
  | .halt => Sys2Proof.Machine.execHalt s
  | .reserved_R2_11101 => Sys2Proof.Machine.execReservedR2_11101 s
  | .reserved_R2_11110 => Sys2Proof.Machine.execReservedR2_11110 s
  | .reserved_R2_11111 => Sys2Proof.Machine.execReservedR2_11111 s

end Sys2Proof.Machine
end

