-- ==== Sys2Proof/Machine/Step.lean ====
section
/-! DEFINITION. One step of the machine: the boundary before an instruction, and the instruction (R55, R276 to R278, R281). -/

namespace Sys2Proof.Machine

/-- One step.
A halted processor has no successor (R258).
Otherwise the request input is sampled once; if the acceptance test holds, the interrupt is taken in place of the
instruction (R277, R281); if it does not, the word at the pc is fetched, decoded and executed (R55). -/
def step (s : State) : Host.Outcome State Fault Refusal :=
  if s.halted then .refused .halted
  else if s.accepts then s.sampled.takeInterrupt
  else
    match s.fetch with
    | .refused r => .refused r
    | .fault f => .fault f
    | .word w =>
      match decode w with
      | none => .refused (.undecodable w)
      | some i => exec i s.sampled

/-- The state with an instruction word placed where the next step fetches it: program memory holds it at the pc, the
processor is not halted, and no request stands at this boundary (log entries 31, 33).
One word is an instruction's whole length (R80). -/
def State.withFetchWord (s : State) (nbits w : Nat) : State :=
  let k := match s.codeIndex s.pc with
    | some k => k
    | none => s.pc.toNat / 2
  { s with
    pmem := Cells.write s.pmem k (BitVec.ofNat 16 (w % 2 ^ nbits))
    halted := false
    irq := match s.irq with
      | [] => []
      | _ :: later => false :: later }

end Sys2Proof.Machine
end

