-- ==== Sys2Proof/Safety.lean ====
section
/-! DEFINITION. The terms in which claims are made: the canonical form of the state, the runs from a state, and the spec's
lists of which instruction writes what (R23, R34, R121). -/

namespace Sys2Proof

/-! ### Condition codes -/

/-- The relation that the description column of the condition-code table names (R170): unsigned as 0..65535, signed as
-32768..32767 (R8). -/
def Cond.relation {n : Nat} (cc : Cond) (a b : BitVec n) : Bool :=
  match cc with
  | .eq => decide (a = b)
  | .ne => decide (a ≠ b)
  | .uge => decide (b.toNat ≤ a.toNat)
  | .ult => decide (a.toNat < b.toNat)
  | .ge => decide (b.toInt ≤ a.toInt)
  | .lt => decide (a.toInt < b.toInt)
  | .ugt => decide (b.toNat < a.toNat)
  | .gt => decide (b.toInt < a.toInt)

/-! ### What an instruction may write -/

/-- The general register that an instruction writes: the Rd of everything but the stores, compares, jumps and calls
(R100). -/
def Instr.dest : Instr → Option Reg
  | .lea_mr _ _ rd | .movw_mr _ _ rd | .movzb_mr _ _ rd | .movsb_mr _ _ rd | .and_kr _ _ rd
  | .mov_kr _ rd | .add_kr rd _ | .sub_kr rd _ | .movw_ar _ rd | .movsb_ar _ rd | .lea_qr _ rd | .movw_qr _ rd
  | .movsb_qr _ rd | .sub_rrr _ _ rd | .subc_rrr _ _ rd | .or_rrr _ _ rd | .and_rrr _ _ rd | .xor_rrr _ _ rd
  | .adc_rrr _ _ rd | .add_rrr _ _ rd | .movw_nr _ _ rd | .movzb_nr _ _ rd | .movsb_nr _ _ rd | .sel_rrr _ _ rd
  | .mov_rr _ rd | .zext_rr _ rd | .sext_rr _ rd | .bswap_rr _ rd | .sextw_rr _ rd | .movw_pr _ rd | .lsr_rr _ rd
  | .lsrc_rr _ rd | .asr_rr _ rd | .neg_rr _ rd | .not_rr _ rd | .set_1r rd => some rd
  | _ => none

/-- The writers of SP (R23). -/
def Instr.writesSP : Instr → Bool
  | .mov_rq _ | .add_kq _ | .call _ | .call_r _ | .ret | .reti => true
  | _ => false

/-- The writers of C (R34). -/
def Instr.writesC : Instr → Bool
  | .add_kr _ _ | .add_rrr _ _ _ | .sub_kr _ _ | .sub_rrr _ _ _ | .neg_rr _ _ | .adc_rrr _ _ _ | .subc_rrr _ _ _
  | .and_kr _ _ _ | .and_rrr _ _ _ | .or_rrr _ _ _ | .xor_rrr _ _ _ | .not_rr _ _
  | .lsr_rr _ _ | .asr_rr _ _ | .lsrc_rr _ _ | .reti => true
  | _ => false

/-- The writers of Z: the same instructions (R34). -/
def Instr.writesZ (i : Instr) : Bool := i.writesC

/-- The writers of T: those of Z, and the compares (R29, R34). -/
def Instr.writesT : Instr → Bool
  | .cmp_rkc _ _ _ | .cmpc_rkc _ _ _ | .cmp_rrc _ _ _ | .cmpc_rrc _ _ _ => true
  | i => i.writesC

/-- The writers of I (R28). -/
def Instr.writesI : Instr → Bool
  | .eint | .dint | .reti => true
  | _ => false

/-- The writers of data memory: the stores and the calls (R58). -/
def Instr.writesMem : Instr → Bool
  | .movw_rm _ _ _ | .movb_rm _ _ _ | .movw_ra _ _ | .movb_ra _ _ | .movw_rq _ _ | .movb_rq _ _ | .movw_rn _ _ _
  | .movb_rn _ _ _ | .call _ | .call_r _ => true
  | _ => false

/-- The writers of PC other than its advance (R25). -/
def Instr.writesPC : Instr → Bool
  | .br_nt _ | .br_t _ | .jmp_k _ | .jmp_r _ | .call _ | .call_r _ | .ret | .reti => true
  | _ => false

/-- The instructions that a pending prefix makes a misuse: the implemented ones of formats R3 and R2, and `pfix_k` (R124). -/
def Instr.refusesPrefix (i : Instr) : Bool :=
  i.wellFormed && (i.format == .r3 || i.format == .r2 || (match i with | .pfix_k _ => true | _ => false))

end Sys2Proof

namespace Sys2Proof.Machine

/-! ### States and runs -/

/-- Both memories are in their canonical form. -/
def State.Canonical (s : State) : Prop := Memory.wf s.mem ∧ ProgMem.wf s.pmem

/-- The states that a run from `s` passes through. -/
inductive Reaches (s : State) : State → Prop where
  | refl : Reaches s s
  | step {t u : State} : Reaches s t → Sys2Proof.Machine.step t = .next u → Reaches s u

/-- A word access at `a` has a meaning under every value of MISALIGNED_WORD: the address is even and both bytes are backed
(R52, R56). -/
def State.WordAccess (s : State) (a : Word) : Prop :=
  a.toNat % 2 = 0 ∧ s.dmemValid a = true ∧ s.dmemValid (a + 1#16) = true

/-- `b` is the address of the first of the two bytes that a word access at `a` touches: `a` itself when it is even; when it
is odd, the address with bit 0 cleared or `a` itself, under the two readings of MISALIGNED_WORD that go on (R52, R56, D7;
log entry 8). -/
def State.FirstByte (s : State) (a b : Word) : Prop :=
  (a.toNat % 2 = 0 ∧ b = a) ∨
    (a.toNat % 2 = 1 ∧ s.cfg.misalignedWord = .ignoreBit0 ∧ b = a - 1#16) ∨
    (a.toNat % 2 = 1 ∧ s.cfg.misalignedWord = .split ∧ b = a)

/-- Both bytes from `b` on are backed by memory (R52). -/
def State.Backed (s : State) (b : Word) : Prop := s.dmemValid b = true ∧ s.dmemValid (b + 1#16) = true

/-- In `s` the instruction loads a word of data memory at `ea` into `rd`, in one of the four addressing forms; the
register form takes no prefix (R200, R124). -/
def State.LoadsWord (s : State) (i : Instr) (rd : Reg) (ea : Word) : Prop :=
  (∃ rs k, i = .movw_mr rs k rd ∧ ea = s.x rs + s.immZ k) ∨ (∃ k, i = .movw_ar k rd ∧ ea = s.immZ k) ∨
    (∃ k, i = .movw_qr k rd ∧ ea = s.sp + s.immZ k) ∨
    (∃ rs rn, i = .movw_nr rs rn rd ∧ ea = s.x rs + s.x rn ∧ s.pfx = none)

/-- In `s` the instruction stores the word of `rd` to data memory at `ea`, in one of the four addressing forms (R200,
R124). -/
def State.StoresWord (s : State) (i : Instr) (rd : Reg) (ea : Word) : Prop :=
  (∃ rs k, i = .movw_rm rd rs k ∧ ea = s.x rs + s.immZ k) ∨ (∃ k, i = .movw_ra rd k ∧ ea = s.immZ k) ∨
    (∃ k, i = .movw_rq rd k ∧ ea = s.sp + s.immZ k) ∨
    (∃ rs rn, i = .movw_rn rd rs rn ∧ ea = s.x rs + s.x rn ∧ s.pfx = none)

/-- In `s` the first access of the instruction to data memory is of a word at `ea`: the word loads and stores, the calls,
`ret`, and `reti` under IRQ_MODEL = stack (R58). -/
def State.AccessesWord (s : State) (i : Instr) (ea : Word) : Prop :=
  (∃ rd, s.LoadsWord i rd ea ∨ s.StoresWord i rd ea) ∨ (∃ k, i = .call k ∧ ea = s.sp - 2#16) ∨
    (∃ r, i = .call_r r ∧ ea = s.sp - 2#16 ∧ s.pfx = none) ∨ (i = .ret ∧ ea = s.sp ∧ s.pfx = none) ∨
    (∃ vector, i = .reti ∧ s.cfg.irqModel = .stack vector ∧ ea = s.sp ∧ s.pfx = none)

/-- A request is accepted at this boundary, under IRQ_MODEL = stack (R277, R279). -/
def State.TakesRequest (s : State) (vector : Word) : Prop :=
  s.halted = false ∧ s.irq.headD false = true ∧ s.sr.i = true ∧ s.pfx = none ∧ s.cfg.irqModel = .stack vector

/-- A run that ends as the spec says a run ends: halted, with no fault on the way (R258, R302). -/
def State.Terminated (s : State) : Prop := s.halted = true

/-! ### Numbers -/

/-- The number whose first and next byte in memory are `b0` and `b1` (R51). -/
def wordValue (o : ByteOrder) (b0 b1 : Byte) : Nat :=
  match o with
  | .little => b0.toNat + 256 * b1.toNat
  | .big => 256 * b0.toNat + b1.toNat

/-- The borrow that the stored carry stands for, as a number: 1 - C, or C under the other reading (R135, D9). -/
def State.borrow (s : State) : Nat :=
  if s.cfg.subCIsNotBorrow then (!s.sr.c).toNat else s.sr.c.toNat

end Sys2Proof.Machine
end

