-- ==== Sys2Proof/Certificates/Slice0/Obligations.lean ====
section
/-! DEFINITION. The statements for the provers. Where a clause rests on one of the spec's own decisions (a D-number) or on
a choice of the model (a log entry), the docstring says so. A statement that names a parameter of R6 holds for every value
of the others. -/

open Sys2Proof Sys2Proof.Machine

/-! ### Encoding -/

/-- Every word of the spec's vector table V1, and eight words of its tables V2 to V8, decode to the instructions they stand
for. The words with an ignored bit set (0x0040, 0x083B, 0x0C7F, 0x0FFF, 0x37FF) rest on D15 (log entry 16), the fields of
the compares, jumps, stores and three-register words on D14 (log entry 15). -/
def Obligations.TableWordsDecode : Prop :=
  decode 0x0000 = some (.mov_rr .r0 .r0) ∧ decode 0x0040 = some (.mov_rr .r0 .r0) ∧
  decode 0x001D = some (.mov_rr .r3 .r5) ∧ decode 0x0C00 = some .ret ∧ decode 0x0C7F = some .ret ∧
  decode 0x0803 = some (.jmp_r .r3) ∧ decode 0x083B = some (.jmp_r .r3) ∧
  decode 0x0300 = some .reserved_R2_00110 ∧ decode 0x0980 = some (.set_rr .r0 .r0) ∧
  decode 0x0B00 = some (.mov_sr .r0) ∧ decode 0x0B80 = some (.mov_rs .r0) ∧
  decode 0x0E80 = some .reserved_R2_11101 ∧ decode 0x0FFF = some .reserved_R2_11111 ∧
  decode 0x1000 = some (.cmp_rrc .eq .r0 .r0) ∧
  decode 0x2C00 = some .reserved_R3_10110 ∧ decode 0x2E00 = some .reserved_R3_10111 ∧
  decode 0x3200 = some .reserved_R3_11001 ∧ decode 0x3400 = some .reserved_R3_11010 ∧
  decode 0x3600 = some .reserved_R3_11011 ∧ decode 0x37FF = some .reserved_R3_11011 ∧
  decode 0x3800 = some (.br_nt 0) ∧ decode 0x3FFF = some (.add_kq 0b111111111) ∧
  decode 0x4000 = some (.mov_kr 0 .r0) ∧ decode 0x9FFF = some (.movb_rq .r7 0xFF) ∧
  decode 0xA000 = some (.lea_mr .r0 0 .r0) ∧ decode 0xD000 = some .reserved_I2_11010 ∧
  decode 0xEFFF = some (.cmpc_rkc .gt .r7 0b11111) ∧ decode 0xF000 = some (.call 0) ∧
  decode 0xF800 = some (.pfix_k 0) ∧ decode 0xFFFF = some (.pfix_k 0x7FF) ∧
  decode 0x47F9 = some (.mov_kr 0xFF .r1) ∧ decode 0x208B = some (.add_rrr .r1 .r2 .r3) ∧
  decode 0x050A = some (.asr_rr .r1 .r2) ∧ decode 0x108D = some (.cmp_rrc .lt .r1 .r2) ∧
  decode 0xC08A = some (.movw_rm .r2 .r1 0b00010) ∧ decode 0x288B = some (.movw_rn .r3 .r1 .r2) ∧
  decode 0x39FD = some (.br_nt 0b111111101) ∧ decode 0xF123 = some (.call 0x123)

/-- Decoding the word of an instruction gives the instruction back, whatever its operands are: no operand bit is dropped
(R81, R85, R90 to R95). -/
def Obligations.DecodeOfEncode : Prop :=
  ∀ i : Instr, decode (encode i) = some i

/-- Every one of the 65536 words selects exactly one row of the opcode table, by the row's mask and match, and decodes to an
instruction of that row (R83, R85, R89: the spec's own derivation). -/
def Obligations.EveryWordSelectsOneRow : Prop :=
  ∀ w : Word, ∃ i, decode w = some i ∧ w &&& i.mask = i.pattern ∧
    ∀ j : Instr, w &&& j.mask = j.pattern → j.mask = i.mask ∧ j.pattern = i.pattern

/-- The bits that a format draws as `x` do not matter to the decoder: bit 6 of every R2 word, the unused register fields of
R2, and everything below the opcode of a reserved slot (R97, R99; the spec's decisions D15, D16). -/
def Obligations.IgnoredBitsDoNotMatter : Prop :=
  (∀ w : Word, w.extractLsb' 12 4 = 0b0000#4 → decode (w ^^^ 0x0040#16) = decode w) ∧
  (∀ (x : BitVec 4) (r : Reg),
    decode (0b000010000#9 ++ x ++ r.bits) = some (.jmp_r r) ∧ decode (0b000010001#9 ++ x ++ r.bits) = some (.call_r r) ∧
    decode (0b000010010#9 ++ x ++ r.bits) = some (.set_1r r) ∧ decode (0b000010110#9 ++ x ++ r.bits) = some (.mov_sr r) ∧
    decode (0b000010111#9 ++ x ++ r.bits) = some (.mov_rs r)) ∧
  (∀ (x : BitVec 1) (r : Reg) (y : BitVec 3), decode (0b000000001#9 ++ x ++ r.bits ++ y) = some (.mov_rq r)) ∧
  (∀ x : BitVec 7,
    decode (0b000011000#9 ++ x) = some .ret ∧ decode (0b000011001#9 ++ x) = some .reti ∧
    decode (0b000011010#9 ++ x) = some .dint ∧ decode (0b000011011#9 ++ x) = some .eint ∧
    decode (0b000011100#9 ++ x) = some .halt ∧
    decode (0b000000110#9 ++ x) = some .reserved_R2_00110 ∧ decode (0b000001011#9 ++ x) = some .reserved_R2_01011 ∧
    decode (0b000001100#9 ++ x) = some .reserved_R2_01100 ∧ decode (0b000001111#9 ++ x) = some .reserved_R2_01111 ∧
    decode (0b000010100#9 ++ x) = some .reserved_R2_10100 ∧ decode (0b000010101#9 ++ x) = some .reserved_R2_10101 ∧
    decode (0b000011101#9 ++ x) = some .reserved_R2_11101 ∧ decode (0b000011110#9 ++ x) = some .reserved_R2_11110 ∧
    decode (0b000011111#9 ++ x) = some .reserved_R2_11111) ∧
  (∀ x : BitVec 9,
    decode (0b0010110#7 ++ x) = some .reserved_R3_10110 ∧ decode (0b0010111#7 ++ x) = some .reserved_R3_10111 ∧
    decode (0b0011001#7 ++ x) = some .reserved_R3_11001 ∧ decode (0b0011010#7 ++ x) = some .reserved_R3_11010 ∧
    decode (0b0011011#7 ++ x) = some .reserved_R3_11011) ∧
  (∀ x : BitVec 11, decode (0b11010#5 ++ x) = some .reserved_I2_11010)

/-- The NOP is the all-zero word, which is `mov r0, r0` of format R2 (R84); executing that one instruction changes nothing
but the pc (R186; that it writes no flag is D13, log entry 14, and the advance of the pc D1 and D2, log entries 2 and 3). -/
def Obligations.NopIsMovR0R0 : Prop :=
  decode 0x0000#16 = some (.mov_rr .r0 .r0) ∧ encode (.mov_rr .r0 .r0) = 0x0000#16 ∧
  (Instr.mov_rr .r0 .r0).format = .r2 ∧
  ∀ s : State, s.pfx = none → exec (.mov_rr .r0 .r0) s = .next { s with pc := s.nextPc }

/-! ### The step -/

/-- When the processor is not halted, no request is accepted, and the word loaded at the pc decodes to an instruction, the
step is the execution of that instruction; the step itself only takes the request input's level of this boundary. The
word that the instruction's faults report is the fetched one (R55, R277; the request input as a list is log entry 24). -/
def Obligations.StepRunsDecodedInstruction : Prop :=
  ∀ (s : State) (k : Nat) (w : Word) (i : Instr), s.halted = false →
    ¬ (s.irq.headD false = true ∧ s.sr.i = true ∧ s.pfx = none) →
    s.codeIndex s.pc = some k → Cells.lookup s.pmem k = some w → decode w = some i →
    step s = exec i { s with irq := s.irq.tail } ∧ State.word { s with irq := s.irq.tail } = w

/-- With word-addressed program memory every pc names a word: its index is the pc itself, and the pc advances by 1 modulo
2^16 (R26, R39, R54; the spec's decisions D1, D2). -/
def Obligations.EveryPcNamesAWord : Prop :=
  ∀ s : State, s.cfg.pmWordAddressed = true →
    s.codeIndex s.pc = some s.pc.toNat ∧ s.nextPc.toNat = (s.pc.toNat + 1) % 65536

/-- A halted processor has no successor, and a fetch of a program word that is not loaded faults (R258 and D20; R274). With
byte-addressed program memory a fetch at an odd address is refused (the model's choice, log entry 2). -/
def Obligations.StepStopsWhenHaltedOrUnloaded : Prop :=
  (∀ s : State, s.halted = true → step s = .refused .halted) ∧
  (∀ (s : State) (k : Nat), s.halted = false → s.irq.headD false = false →
    s.codeIndex s.pc = some k → Cells.lookup s.pmem k = none → step s = .fault (.unwrittenRead s.pc)) ∧
  (∀ s : State, s.halted = false → s.irq.headD false = false → s.cfg.pmWordAddressed = false →
    s.pc.toNat % 2 = 1 → step s = .refused (.oddCodeAddress s.pc))

/-- A word placed where the step fetches is the word that the next step runs (the model's own; log entries 31, 33). -/
def Obligations.PlacedWordRunsNext : Prop :=
  ∀ (s : State) (k : Nat) (i : Instr), s.codeIndex s.pc = some k →
    step (s.withFetchWord 16 (encode i).toNat) = exec i (s.withFetchWord 16 (encode i).toNat).sampled

/-! ### Interrupts -/

/-- Under IRQ_MODEL = refuse an accepted request is a fault, in place of the instruction (R277, R278, R281; D19). -/
def Obligations.RefusedRequestFaults : Prop :=
  ∀ s : State, s.halted = false → s.irq.headD false = true → s.sr.i = true → s.pfx = none →
    s.cfg.irqModel = .refuse → step s = .fault (.interruptUnspecified .request)

/-- Under IRQ_MODEL = stack an accepted request pushes the pc and the flag image (bit 3 = I, bit 2 = T, bit 1 = C,
bit 0 = Z), clears I and goes to the vector; every other register, flag and byte is as before (R279: the spec's invented
scheme, D19). -/
def Obligations.AcceptedRequestPushesPcAndFlags : Prop :=
  ∀ (s : State) (vector : Word), s.halted = false → s.irq.headD false = true → s.sr.i = true → s.pfx = none →
    s.cfg.irqModel = .stack vector → s.WordAccess (s.sp - 2#16) → s.WordAccess (s.sp - 4#16) →
    ∃ t : State, step s = .next t ∧
      t = { s with mem := t.mem, sp := s.sp - 4#16, sr := { s.sr with i := false }, pc := vector, irq := s.irq.tail } ∧
      wordValue s.cfg.byteOrder (t.byteAt (s.sp - 2#16)) (t.byteAt (s.sp - 1#16)) = s.pc.toNat ∧
      wordValue s.cfg.byteOrder (t.byteAt (s.sp - 4#16)) (t.byteAt (s.sp - 3#16)) =
        8 * s.sr.i.toNat + 4 * s.sr.t.toNat + 2 * s.sr.c.toNat + s.sr.z.toNat ∧
      ∀ a, a ≠ s.sp - 1#16 → a ≠ s.sp - 2#16 → a ≠ s.sp - 3#16 → a ≠ s.sp - 4#16 → t.byteAt a = s.byteAt a

/-- `reti` under IRQ_MODEL = stack pops the flag image and the pc; nothing else changes (R280: the spec's invented scheme,
D19). -/
def Obligations.RetiRestoresFlagsAndPc : Prop :=
  ∀ (s : State) (vector : Word), s.pfx = none → s.cfg.irqModel = .stack vector →
    s.WordAccess s.sp → s.WordAccess (s.sp + 2#16) →
    ∃ img ra : Word,
      img.toNat = wordValue s.cfg.byteOrder (s.byteAt s.sp) (s.byteAt (s.sp + 1#16)) ∧
      ra.toNat = wordValue s.cfg.byteOrder (s.byteAt (s.sp + 2#16)) (s.byteAt (s.sp + 3#16)) ∧
      exec .reti s = .next { s with
        sp := s.sp + 4#16, pc := ra, pfx := none
        sr := { i := img[3], t := img[2], c := img[1], z := img[0] } }

/-- `reti` is the inverse of interrupt entry: the interrupted program resumes at the instruction that was about to execute,
with its registers, its stack pointer and I, T, C, Z as they were (R280; D19). -/
def Obligations.RetiUndoesInterruptEntry : Prop :=
  ∀ (s : State) (vector : Word), s.halted = false → s.irq.headD false = true → s.sr.i = true → s.pfx = none →
    s.cfg.irqModel = .stack vector → s.WordAccess (s.sp - 2#16) → s.WordAccess (s.sp - 4#16) →
    ∃ t u : State, step s = .next t ∧ exec .reti t = .next u ∧
      u = { s with mem := t.mem, irq := s.irq.tail }

/-- `reti` under IRQ_MODEL = refuse faults, after the check for a pending prefix (R257, R272; D19). -/
def Obligations.RetiUnderRefuseFaults : Prop :=
  ∀ s : State, s.pfx = none → s.cfg.irqModel = .refuse →
    exec .reti s = .fault (.interruptUnspecified (.reti s.word))

/-! ### The prefix -/

/-- `pfix_k` sets the pending prefix and advances the pc, by 1 with word-addressed program memory (R120; D1, log entry 2);
with a prefix pending it faults (R124; D17, log entry 18); nothing else changes. -/
def Obligations.PfixSetsThePendingPrefix : Prop :=
  ∀ (s : State) (p : BitVec 11), decode (0b11111#5 ++ p) = some (.pfix_k p) ∧
    (s.pfx = none → exec (.pfix_k p) s = .next { s with pfx := some p, pc := s.nextPc }) ∧
    (s.cfg.pmWordAddressed = true → s.nextPc = s.pc + 1#16) ∧
    (∀ q, s.pfx = some q → exec (.pfix_k p) s = .fault (.prefixMisuse s.word))

/-- The effective immediate: with a prefix pending the 11 bits of the prefix over the low five bits of the field, without
one the extended field; and every instruction but `pfix_k` leaves no prefix pending (R121). That the upper bits of the field
are ignored is D15 (log entry 16), the lifetime of the prefix D17 (log entry 18). -/
def Obligations.EffectiveImmediate : Prop :=
  (∀ (s : State) (p : BitVec 11) (n : Nat) (raw : BitVec n), 5 ≤ n → s.pfx = some p →
    (s.immZ raw).toNat = 32 * p.toNat + raw.toNat % 32 ∧ (s.immS raw).toNat = 32 * p.toNat + raw.toNat % 32) ∧
  (∀ (s : State) (n : Nat) (raw : BitVec n), n ≤ 16 → s.pfx = none →
    (s.immZ raw).toNat = raw.toNat ∧ (s.immS raw).toInt = raw.toInt) ∧
  (∀ (i : Instr) (s t : State), exec i s = .next t → (∃ p, i = .pfix_k p) ∨ t.pfx = none)

/-- An implemented instruction of format R3 or R2, or a `pfix_k`, faults when a prefix is pending (R124; D17). -/
def Obligations.PrefixMisuseFaults : Prop :=
  ∀ (i : Instr) (s : State) (p : BitVec 11), i.refusesPrefix = true → s.pfx = some p →
    exec i s = .fault (.prefixMisuse s.word)

/-! ### Arithmetic -/

/-- `add` in both forms, with their words: the sum modulo 2^16, C the carry out of bit 15, Z and T whether the result is
zero; nothing else but pc and the pending prefix changes (R130, R131). -/
def Obligations.AddSetsCarryAndZero : Prop :=
  ∀ s : State,
    (∀ (rd : Reg) (k : BitVec 8), exec (.add_kr rd k) s = .next { s with
      regs := s.regs.set rd (s.x rd + s.immZ k), pc := s.nextPc, pfx := none
      sr := { i := s.sr.i
              c := decide (65536 ≤ (s.x rd).toNat + (s.immZ k).toNat)
              z := decide (s.x rd + s.immZ k = 0#16)
              t := decide (s.x rd + s.immZ k = 0#16) } }) ∧
    (∀ rs rn rd : Reg, s.pfx = none → exec (.add_rrr rs rn rd) s = .next { s with
      regs := s.regs.set rd (s.x rs + s.x rn), pc := s.nextPc
      sr := { i := s.sr.i
              c := decide (65536 ≤ (s.x rs).toNat + (s.x rn).toNat)
              z := decide (s.x rs + s.x rn = 0#16)
              t := decide (s.x rs + s.x rn = 0#16) } }) ∧
    (∀ (k : BitVec 8) (rs rn rd : Reg), decode (0b01001#5 ++ k ++ rd.bits) = some (.add_kr rd k) ∧
      decode (0b0010000#7 ++ rn.bits ++ rs.bits ++ rd.bits) = some (.add_rrr rs rn rd))

/-- `addc`: one sum of both sources and C; Z is the old Z and "the result is zero" when Z_CHAIN, T the new Z (R132;
D10). -/
def Obligations.AddcAddsTheCarryAndChainsZero : Prop :=
  ∀ (s : State) (rs rn rd : Reg), s.pfx = none →
    ∃ r : Word, r.toNat = ((s.x rs).toNat + (s.x rn).toNat + s.sr.c.toNat) % 65536 ∧
      exec (.adc_rrr rs rn rd) s = .next { s with
        regs := s.regs.set rd r, pc := s.nextPc
        sr := { i := s.sr.i
                c := decide (65536 ≤ (s.x rs).toNat + (s.x rn).toNat + s.sr.c.toNat)
                z := (!s.cfg.zChain || s.sr.z) && decide (r = 0#16)
                t := (!s.cfg.zChain || s.sr.z) && decide (r = 0#16) } }

/-- `sub` in both forms and `neg`: the difference modulo 2^16, C = no borrow (or the borrow, under the other value of
SUB_C_IS_NOT_BORROW), Z and T whether the result is zero (R133, R134, R136; D9). -/
def Obligations.SubSetsNoBorrowAndZero : Prop :=
  ∀ s : State,
    (∀ (rd : Reg) (k : BitVec 8), exec (.sub_kr rd k) s = .next { s with
      regs := s.regs.set rd (s.x rd - s.immZ k), pc := s.nextPc, pfx := none
      sr := { i := s.sr.i
              c := s.cfg.subCIsNotBorrow == decide ((s.immZ k).toNat ≤ (s.x rd).toNat)
              z := decide (s.x rd = s.immZ k)
              t := decide (s.x rd = s.immZ k) } }) ∧
    (∀ rs rn rd : Reg, s.pfx = none → exec (.sub_rrr rs rn rd) s = .next { s with
      regs := s.regs.set rd (s.x rs - s.x rn), pc := s.nextPc
      sr := { i := s.sr.i
              c := s.cfg.subCIsNotBorrow == decide ((s.x rn).toNat ≤ (s.x rs).toNat)
              z := decide (s.x rs = s.x rn)
              t := decide (s.x rs = s.x rn) } }) ∧
    (∀ rs rd : Reg, s.pfx = none → exec (.neg_rr rs rd) s = .next { s with
      regs := s.regs.set rd (-s.x rs), pc := s.nextPc
      sr := { i := s.sr.i
              c := s.cfg.subCIsNotBorrow == decide (s.x rs = 0#16)
              z := decide (s.x rs = 0#16)
              t := decide (s.x rs = 0#16) } })

/-- `subc`: Rs - Rn - borrow modulo 2^16, where the stored C says whether the words before borrowed; C says the same of
the combined subtraction, Z is chained, T is the new Z (R135; D9, D10, C2). -/
def Obligations.SubcSubtractsTheBorrowAndChainsZero : Prop :=
  ∀ (s : State) (rs rn rd : Reg), s.pfx = none →
    ∃ r : Word, r.toNat = ((s.x rs).toNat + 65536 + 65536 - (s.x rn).toNat - s.borrow) % 65536 ∧
      exec (.subc_rrr rs rn rd) s = .next { s with
        regs := s.regs.set rd r, pc := s.nextPc
        sr := { i := s.sr.i
                c := s.cfg.subCIsNotBorrow == decide ((s.x rn).toNat + s.borrow ≤ (s.x rs).toNat)
                z := (!s.cfg.zChain || s.sr.z) && decide (r = 0#16)
                t := (!s.cfg.zChain || s.sr.z) && decide (r = 0#16) } }

/-- `lea` in both forms and `add SP, K, SP`: address sums modulo 2^16 that write no flag (R137 to R139; D13). -/
def Obligations.AddressSumsWriteNoFlag : Prop :=
  ∀ s : State,
    (∀ (rs rd : Reg) (k : BitVec 5), exec (.lea_mr rs k rd) s = .next { s with
      regs := s.regs.set rd (s.x rs + s.immZ k), pc := s.nextPc, pfx := none }) ∧
    (∀ (rd : Reg) (k : BitVec 8), exec (.lea_qr k rd) s = .next { s with
      regs := s.regs.set rd (s.sp + s.immZ k), pc := s.nextPc, pfx := none }) ∧
    (∀ k : BitVec 9, exec (.add_kq k) s = .next { s with
      sp := s.sp + s.immS k, pc := s.nextPc, pfx := none })

/-- `zext`, `sext`, `sextw`: the low byte read as unsigned, the low byte read as signed, and all ones or zero by the sign
(R140 to R142; that no flag is written is D13). -/
def Obligations.ExtensionsOfTheLowByteAndTheSign : Prop :=
  ∀ (s : State) (rs rd : Reg), s.pfx = none →
    (∃ v : Word, v.toNat = (s.x rs).toNat % 256 ∧
      exec (.zext_rr rs rd) s = .next { s with regs := s.regs.set rd v, pc := s.nextPc }) ∧
    (∃ v : Word, v.toInt = (if (s.x rs).toNat % 256 < 128 then ((s.x rs).toNat % 256 : Int)
        else ((s.x rs).toNat % 256 : Int) - 256) ∧
      exec (.sext_rr rs rd) s = .next { s with regs := s.regs.set rd v, pc := s.nextPc }) ∧
    (∃ v : Word, v.toInt = (if (s.x rs).toInt < 0 then -1 else 0) ∧
      exec (.sextw_rr rs rd) s = .next { s with regs := s.regs.set rd v, pc := s.nextPc })

/-- The logical operations, bit by bit: Z and T say whether the result is zero; C is an open value, of which nothing is
said (R143 to R147; D11, log entry 12; `draws` is the model's own counter, log entry 29). -/
def Obligations.LogicSetsZeroAndLeavesCarryOpen : Prop :=
  ∀ s : State,
    (∀ (rs rd : Reg) (k : BitVec 5), ∃ (r : Word) (c : Bool),
      (∀ n, r.getLsbD n = ((s.x rs).getLsbD n && (s.immZ k).getLsbD n)) ∧
      exec (.and_kr rs k rd) s = .next { s with
        regs := s.regs.set rd r, pc := s.nextPc, pfx := none, draws := s.draws + 1
        sr := { i := s.sr.i, c := c, z := decide (r = 0#16), t := decide (r = 0#16) } }) ∧
    (∀ (i : Instr) (f : Bool → Bool → Bool) (rs rn rd : Reg), s.pfx = none →
      (i = .and_rrr rs rn rd ∧ f = (fun p q => p && q)) ∨ (i = .or_rrr rs rn rd ∧ f = (fun p q => p || q)) ∨
        (i = .xor_rrr rs rn rd ∧ f = (fun p q => p != q)) ∨ (i = .not_rr rs rd ∧ f = (fun p _ => !p)) →
      ∃ (r : Word) (c : Bool),
        (∀ n, n < 16 → r.getLsbD n = f ((s.x rs).getLsbD n) ((s.x rn).getLsbD n)) ∧
        exec i s = .next { s with
          regs := s.regs.set rd r, pc := s.nextPc, draws := s.draws + 1
          sr := { i := s.sr.i, c := c, z := decide (r = 0#16), t := decide (r = 0#16) } })

/-- The right shifts by one: C is the old bit 0; bit 15 becomes zero (lsr), keeps its value (asr, so the result is the
floor of half the signed value), or is the old C (lsrc); Z and T are open values, of which nothing is said (R148 to R150;
D12, log entry 13). -/
def Obligations.ShiftsMoveBitZeroToCarry : Prop :=
  ∀ (s : State) (rs rd : Reg), s.pfx = none →
    (∃ (v : Word) (z t : Bool), v.toNat = (s.x rs).toNat / 2 ∧
      exec (.lsr_rr rs rd) s = .next { s with
        regs := s.regs.set rd v, pc := s.nextPc, draws := s.draws + 1
        sr := { i := s.sr.i, c := decide ((s.x rs).toNat % 2 = 1), z := z, t := t } }) ∧
    (∃ (v : Word) (z t : Bool), v.toInt = (s.x rs).toInt / 2 ∧
      exec (.asr_rr rs rd) s = .next { s with
        regs := s.regs.set rd v, pc := s.nextPc, draws := s.draws + 1
        sr := { i := s.sr.i, c := decide ((s.x rs).toNat % 2 = 1), z := z, t := t } }) ∧
    (∃ (v : Word) (z t : Bool), v.toNat = (s.x rs).toNat / 2 + 32768 * s.sr.c.toNat ∧
      exec (.lsrc_rr rs rd) s = .next { s with
        regs := s.regs.set rd v, pc := s.nextPc, draws := s.draws + 1
        sr := { i := s.sr.i, c := decide ((s.x rs).toNat % 2 = 1), z := z, t := t } })

/-! ### Arithmetic wider than a register (R151) -/

/-- `add` on the low words and then `addc` on the high words is 32-bit addition, with the 32-bit carry in C and, under
Z_CHAIN, the 32-bit zero test in Z and T (R151, R132; D10). -/
def Obligations.AddThenAddcIsWideAddition : Prop :=
  ∀ (s : State) (aL bL rL aH bH rH : Reg), s.pfx = none → s.cfg.zChain = true →
    rL ≠ aH → rL ≠ bH → rL ≠ rH →
    ∃ t u : State, exec (.add_rrr aL bL rL) s = .next t ∧ exec (.adc_rrr aH bH rH) t = .next u ∧
      (let a : BitVec 32 := s.x aH ++ s.x aL
       let b : BitVec 32 := s.x bH ++ s.x bL
       u.x rH ++ u.x rL = a + b ∧ u.sr.c = decide (4294967296 ≤ a.toNat + b.toNat) ∧
         u.sr.z = decide (a + b = 0) ∧ u.sr.t = decide (a + b = 0))

/-- `sub` on the low words and then `subc` on the high words is 32-bit subtraction, under either reading of C (R151, R135;
D9, D10). -/
def Obligations.SubThenSubcIsWideSubtraction : Prop :=
  ∀ (s : State) (aL bL rL aH bH rH : Reg), s.pfx = none → s.cfg.zChain = true →
    rL ≠ aH → rL ≠ bH → rL ≠ rH →
    ∃ t u : State, exec (.sub_rrr aL bL rL) s = .next t ∧ exec (.subc_rrr aH bH rH) t = .next u ∧
      (let a : BitVec 32 := s.x aH ++ s.x aL
       let b : BitVec 32 := s.x bH ++ s.x bL
       u.x rH ++ u.x rL = a - b ∧ u.sr.c = (s.cfg.subCIsNotBorrow == decide (b.toNat ≤ a.toNat)) ∧
         u.sr.z = decide (a = b) ∧ u.sr.t = decide (a = b))

/-- `sub` on the low words and then `cmpc` on the high words decides all eight relations of the 32-bit values, under either
reading of C (R175; D9, D10). -/
def Obligations.SubThenCmpcIsWideCompare : Prop :=
  ∀ (s : State) (cc : Cond) (aL bL rL aH bH : Reg), s.pfx = none → s.cfg.zChain = true → rL ≠ aH → rL ≠ bH →
    ∃ t u : State, exec (.sub_rrr aL bL rL) s = .next t ∧ exec (.cmpc_rrc cc aH bH) t = .next u ∧
      u.sr.t = cc.relation (n := 32) (s.x aH ++ s.x aL) (s.x bH ++ s.x bL)

/-- `lsr` or `asr` on the high word and then `lsrc` on the low word is the 32-bit shift right by one, logical or
arithmetic, with the bit shifted out in C (R150, R151). -/
def Obligations.ShiftThenLsrcIsWideShift : Prop :=
  ∀ (s : State) (aL aH rL rH : Reg), s.pfx = none → rH ≠ aL → rH ≠ rL →
    (∃ t u : State, exec (.lsr_rr aH rH) s = .next t ∧ exec (.lsrc_rr aL rL) t = .next u ∧
      u.x rH ++ u.x rL = (s.x aH ++ s.x aL : BitVec 32) >>> 1 ∧ u.sr.c = decide ((s.x aL).toNat % 2 = 1)) ∧
    (∃ t u : State, exec (.asr_rr aH rH) s = .next t ∧ exec (.lsrc_rr aL rL) t = .next u ∧
      u.x rH ++ u.x rL = (s.x aH ++ s.x aL : BitVec 32).sshiftRight 1 ∧ u.sr.c = decide ((s.x aL).toNat % 2 = 1))

/-! ### Compares -/

/-- `cmp` in both forms sets T to the relation that the condition code names, of Rs and the sign-extended or prefixed K, or
of Rs and Rn; C, Z, I and everything else but pc and the pending prefix stay (R172, R174, C1). -/
def Obligations.CompareSetsTToTheRelation : Prop :=
  ∀ (s : State) (cc : Cond) (rs : Reg),
    (∀ k : BitVec 5, exec (.cmp_rkc cc rs k) s = .next { s with
      sr := { s.sr with t := cc.relation (s.x rs) (s.immS k) }, pc := s.nextPc, pfx := none }) ∧
    (∀ rn : Reg, s.pfx = none → exec (.cmp_rrc cc rs rn) s = .next { s with
      sr := { s.sr with t := cc.relation (s.x rs) (s.x rn) }, pc := s.nextPc })

/-- `cmpc` in both forms sets T by the exact difference a - b - borrow: its carry, its sign, and its zero test chained
with Z; nothing else but pc and the pending prefix changes (R171, R173, R175; D9, D10). -/
def Obligations.CompareWithCarrySetsT : Prop :=
  ∀ (s : State) (cc : Cond) (rs : Reg) (b : Word) (i : Instr),
    (∃ k : BitVec 5, i = .cmpc_rkc cc rs k ∧ b = s.immS k) ∨
      (∃ rn : Reg, i = .cmpc_rrc cc rs rn ∧ b = s.x rn ∧ s.pfx = none) →
    exec i s = .next { s with
      pc := s.nextPc, pfx := none
      sr := { s.sr with t :=
        let uge := decide (b.toNat + s.borrow ≤ (s.x rs).toNat)
        let ge := decide ((0 : Int) ≤ (s.x rs).toInt - b.toInt - s.borrow)
        let zero := (!s.cfg.zChain || s.sr.z) && decide ((s.x rs).toNat = (b.toNat + s.borrow) % 65536)
        match cc with
        | .eq => zero
        | .ne => !zero
        | .uge => uge
        | .ult => !uge
        | .ge => ge
        | .lt => !ge
        | .ugt => uge && !zero
        | .gt => ge && !zero } }

/-! ### Moves -/

/-- The moves and the byte swap write their one destination and no flag (R185 to R188; D13). -/
def Obligations.MovesWriteTheirDestination : Prop :=
  ∀ s : State,
    (∀ (k : BitVec 8) (rd : Reg), exec (.mov_kr k rd) s = .next { s with
      regs := s.regs.set rd (s.immS k), pc := s.nextPc, pfx := none }) ∧
    (∀ rs rd : Reg, s.pfx = none → exec (.mov_rr rs rd) s = .next { s with
      regs := s.regs.set rd (s.x rs), pc := s.nextPc }) ∧
    (∀ rs : Reg, s.pfx = none → exec (.mov_rq rs) s = .next { s with sp := s.x rs, pc := s.nextPc }) ∧
    (∀ rs rd : Reg, s.pfx = none → ∃ v : Word, v.toNat = 256 * ((s.x rs).toNat % 256) + (s.x rs).toNat / 256 ∧
      exec (.bswap_rr rs rd) s = .next { s with regs := s.regs.set rd v, pc := s.nextPc })

/-- `selcc` copies Rs if T is set and Rn otherwise; `setcc` moves 1 or 0; no flag is written (R189, R190; D13). -/
def Obligations.SelectAndSetFollowT : Prop :=
  ∀ s : State, s.pfx = none →
    (∀ rs rn rd : Reg,
      (s.sr.t = true → exec (.sel_rrr rs rn rd) s = .next { s with
        regs := s.regs.set rd (s.x rs), pc := s.nextPc }) ∧
      (s.sr.t = false → exec (.sel_rrr rs rn rd) s = .next { s with
        regs := s.regs.set rd (s.x rn), pc := s.nextPc })) ∧
    (∀ rd : Reg,
      (s.sr.t = true → exec (.set_1r rd) s = .next { s with regs := s.regs.set rd 1#16, pc := s.nextPc }) ∧
      (s.sr.t = false → exec (.set_1r rd) s = .next { s with regs := s.regs.set rd 0#16, pc := s.nextPc }))

/-- The register file holds what is written to it: every register reads back the value last written, none is hard-wired,
and a write leaves the other seven alone (R20, R21). -/
def Obligations.EveryRegisterReadsBack : Prop :=
  ∀ (x : Regs) (r q : Reg) (v : Word), (x.set r v).get q = if q = r then v else x.get q

/-! ### Loads and stores -/

/-- The four word loads from data memory put into Rd the word at the effective address, at an even address and in either byte
order; nothing else but pc and the pending prefix changes (R201, R206, R210, R214 with R51, R52, R63). The zero-extended,
unscaled immediate of the address is D8 (log entry 9), its wrap D2 (log entry 3), that no flag is written D13 (log entry
14), the byte order D6 (log entry 7). Odd addresses are the subject of OddWordAccessFaults and
OddWordAccessUnderTheOtherReadings. -/
def Obligations.WordLoadsReadTwoBytes : Prop :=
  ∀ (s : State) (i : Instr) (ea : Word) (rd : Reg),
    (∃ rs k, i = .movw_mr rs k rd ∧ ea = s.x rs + s.immZ k) ∨ (∃ k, i = .movw_ar k rd ∧ ea = s.immZ k) ∨
      (∃ k, i = .movw_qr k rd ∧ ea = s.sp + s.immZ k) ∨
      (∃ rs rn, i = .movw_nr rs rn rd ∧ ea = s.x rs + s.x rn ∧ s.pfx = none) →
    s.WordAccess ea →
    ∃ v : Word, v.toNat = wordValue s.cfg.byteOrder (s.byteAt ea) (s.byteAt (ea + 1#16)) ∧
      exec i s = .next { s with regs := s.regs.set rd v, pc := s.nextPc, pfx := none }

/-- The byte loads, with their words, put into Rd the byte at the effective address, odd or even, zero-extended or
sign-extended; nothing else but pc and the pending prefix changes (R202, R203, R207, R211, R215, R216). The zero-extended,
unscaled immediate of the address is D8 (log entry 9), its wrap D2 (log entry 3), that no flag is written D13 (log entry
14), the order of the register fields D14 (log entry 15). -/
def Obligations.ByteLoadsExtend : Prop :=
  ∀ (s : State) (i : Instr) (ea : Word) (rd : Reg), s.dmemValid ea = true →
    ((∃ rs k, i = .movzb_mr rs k rd ∧ ea = s.x rs + s.immZ k) ∨
        (∃ rs rn, i = .movzb_nr rs rn rd ∧ ea = s.x rs + s.x rn ∧ s.pfx = none) →
      ∃ v : Word, v.toNat = (s.byteAt ea).toNat ∧
        exec i s = .next { s with regs := s.regs.set rd v, pc := s.nextPc, pfx := none }) ∧
    ((∃ rs k, i = .movsb_mr rs k rd ∧ ea = s.x rs + s.immZ k) ∨ (∃ k, i = .movsb_ar k rd ∧ ea = s.immZ k) ∨
        (∃ k, i = .movsb_qr k rd ∧ ea = s.sp + s.immZ k) ∨
        (∃ rs rn, i = .movsb_nr rs rn rd ∧ ea = s.x rs + s.x rn ∧ s.pfx = none) →
      ∃ v : Word, v.toInt = (s.byteAt ea).toInt ∧
        exec i s = .next { s with regs := s.regs.set rd v, pc := s.nextPc, pfx := none }) ∧
    (∀ (k5 : BitVec 5) (k8 : BitVec 8) (rs rn : Reg),
      decode (0b10110#5 ++ k5 ++ rs.bits ++ rd.bits) = some (.movzb_mr rs k5 rd) ∧
      decode (0b10111#5 ++ k5 ++ rs.bits ++ rd.bits) = some (.movsb_mr rs k5 rd) ∧
      decode (0b01100#5 ++ k8 ++ rd.bits) = some (.movsb_ar k8 rd) ∧
      decode (0b10001#5 ++ k8 ++ rd.bits) = some (.movsb_qr k8 rd) ∧
      decode (0b0010010#7 ++ rn.bits ++ rs.bits ++ rd.bits) = some (.movzb_nr rs rn rd) ∧
      decode (0b0010011#7 ++ rn.bits ++ rs.bits ++ rd.bits) = some (.movsb_nr rs rn rd))

/-- The four word stores write the two bytes of Rd at the effective address, at an even address and in either byte order, and
no other byte; nothing else but pc and the pending prefix changes (R204, R208, R212, R217 with R51, R53, R63). The
zero-extended, unscaled immediate of the address is D8 (log entry 9), its wrap D2 (log entry 3), that no flag is written D13
(log entry 14), the byte order D6 (log entry 7). Odd addresses are the subject of OddWordAccessFaults and
OddWordAccessUnderTheOtherReadings. -/
def Obligations.WordStoresWriteTwoBytes : Prop :=
  ∀ (s : State) (i : Instr) (ea : Word) (rd : Reg),
    (∃ rs k, i = .movw_rm rd rs k ∧ ea = s.x rs + s.immZ k) ∨ (∃ k, i = .movw_ra rd k ∧ ea = s.immZ k) ∨
      (∃ k, i = .movw_rq rd k ∧ ea = s.sp + s.immZ k) ∨
      (∃ rs rn, i = .movw_rn rd rs rn ∧ ea = s.x rs + s.x rn ∧ s.pfx = none) →
    s.WordAccess ea →
    ∃ t : State, exec i s = .next t ∧ t = { s with mem := t.mem, pc := s.nextPc, pfx := none } ∧
      wordValue s.cfg.byteOrder (t.byteAt ea) (t.byteAt (ea + 1#16)) = (s.x rd).toNat ∧
      ∀ a, a ≠ ea → a ≠ ea + 1#16 → t.byteAt a = s.byteAt a

/-- The four byte stores, with their words, write the low byte of Rd at the effective address, odd or even, and no other
byte; nothing else but pc and the pending prefix changes (R205, R209, R213, R218). The zero-extended, unscaled immediate of
the address is D8 (log entry 9), its wrap D2 (log entry 3), that no flag is written D13 (log entry 14), the field of the
stored register D14 (log entry 15). -/
def Obligations.ByteStoresWriteTheLowByte : Prop :=
  ∀ (s : State) (i : Instr) (ea : Word) (rd : Reg),
    (∃ rs k, i = .movb_rm rd rs k ∧ ea = s.x rs + s.immZ k) ∨ (∃ k, i = .movb_ra rd k ∧ ea = s.immZ k) ∨
      (∃ k, i = .movb_rq rd k ∧ ea = s.sp + s.immZ k) ∨
      (∃ rs rn, i = .movb_rn rd rs rn ∧ ea = s.x rs + s.x rn ∧ s.pfx = none) →
    s.dmemValid ea = true →
    ∃ t : State, exec i s = .next t ∧ t = { s with mem := t.mem, pc := s.nextPc, pfx := none } ∧
      (t.byteAt ea).toNat = (s.x rd).toNat % 256 ∧ (∀ a, a ≠ ea → t.byteAt a = s.byteAt a) ∧
      ∀ (k5 : BitVec 5) (k8 : BitVec 8) (rs rn : Reg),
        decode (0b11001#5 ++ k5 ++ rs.bits ++ rd.bits) = some (.movb_rm rd rs k5) ∧
        decode (0b01110#5 ++ k8 ++ rd.bits) = some (.movb_ra rd k8) ∧
        decode (0b10011#5 ++ k8 ++ rd.bits) = some (.movb_rq rd k8) ∧
        decode (0b0010101#7 ++ rn.bits ++ rs.bits ++ rd.bits) = some (.movb_rn rd rs rn)

/-- `ld.w` from program memory reads the word whose index is Rs, at every address (R54, R219; D1). With byte-addressed
program memory it is the word at half an even address, and an odd address is refused (the model's choice, log entry 2). A
word that is not loaded is an open value (log entry 22). -/
def Obligations.ProgramLoadReadsTheWord : Prop :=
  ∀ (s : State) (rs rd : Reg), s.pfx = none →
    (s.cfg.pmWordAddressed = true → ∃ v : Word, (∀ w, Cells.lookup s.pmem (s.x rs).toNat = some w → v = w) ∧
      exec (.movw_pr rs rd) s = .next { s with regs := s.regs.set rd v, pc := s.nextPc }) ∧
    (s.cfg.pmWordAddressed = false → (s.x rs).toNat % 2 = 0 →
      ∃ v : Word, (∀ w, Cells.lookup s.pmem ((s.x rs).toNat / 2) = some w → v = w) ∧
        exec (.movw_pr rs rd) s = .next { s with regs := s.regs.set rd v, pc := s.nextPc }) ∧
    (s.cfg.pmWordAddressed = false → (s.x rs).toNat % 2 = 1 →
      exec (.movw_pr rs rd) s = .refused (.oddCodeAddress (s.x rs)))

/-- With the default MISALIGNED_WORD every word access to data memory at an odd address faults with that address: loads,
stores, calls, `ret`, the first pop of `reti`, and the first push of interrupt entry; the second access of the last two has
the same parity, so it is never the one that faults so (R56, R58; D7, log entry 8). The address of a load or store rests on
D8 (log entry 9); that a call accesses SP - 2 and `ret` SP is R244 to R246, by D5 (log entry 6); the addresses of `reti` and
of interrupt entry are R279 and R280, by D19 (log entry 23). -/
def Obligations.OddWordAccessFaults : Prop :=
  ∀ s : State, s.cfg.misalignedWord = .fault →
    (∀ (i : Instr) (ea : Word), ea.toNat % 2 = 1 → s.AccessesWord i ea → exec i s = .fault (.misalignedWord ea)) ∧
    (∀ vector : Word, s.TakesRequest vector → s.sp.toNat % 2 = 1 → step s = .fault (.misalignedWord (s.sp - 2#16)))

/-- Under the two other readings of MISALIGNED_WORD a word load or store at an odd address goes on: its two bytes are those
at the address with bit 0 cleared, or those at the address itself and the next (the readings that D7 sets aside; that the
parameter has these two other values is the model's choice, log entry 8). The effective address rests on D8 (log entry 9),
the flag frame on D13 (log entry 14). -/
def Obligations.OddWordAccessUnderTheOtherReadings : Prop :=
  ∀ (s : State) (ea b : Word) (rd : Reg), ea.toNat % 2 = 1 →
    (s.cfg.misalignedWord = .ignoreBit0 ∧ b = ea - 1#16) ∨ (s.cfg.misalignedWord = .split ∧ b = ea) →
    s.dmemValid b = true → s.dmemValid (b + 1#16) = true →
    (∀ i : Instr, (∃ rs k, i = .movw_mr rs k rd ∧ ea = s.x rs + s.immZ k) ∨ (∃ k, i = .movw_ar k rd ∧ ea = s.immZ k) ∨
        (∃ k, i = .movw_qr k rd ∧ ea = s.sp + s.immZ k) ∨
        (∃ rs rn, i = .movw_nr rs rn rd ∧ ea = s.x rs + s.x rn ∧ s.pfx = none) →
      ∃ v : Word, v.toNat = wordValue s.cfg.byteOrder (s.byteAt b) (s.byteAt (b + 1#16)) ∧
        exec i s = .next { s with regs := s.regs.set rd v, pc := s.nextPc, pfx := none }) ∧
    (∀ i : Instr, (∃ rs k, i = .movw_rm rd rs k ∧ ea = s.x rs + s.immZ k) ∨ (∃ k, i = .movw_ra rd k ∧ ea = s.immZ k) ∨
        (∃ k, i = .movw_rq rd k ∧ ea = s.sp + s.immZ k) ∨
        (∃ rs rn, i = .movw_rn rd rs rn ∧ ea = s.x rs + s.x rn ∧ s.pfx = none) →
      ∃ t : State, exec i s = .next t ∧ t = { s with mem := t.mem, pc := s.nextPc, pfx := none } ∧
        wordValue s.cfg.byteOrder (t.byteAt b) (t.byteAt (b + 1#16)) = (s.x rd).toNat ∧
        ∀ a, a ≠ b → a ≠ b + 1#16 → t.byteAt a = s.byteAt a)

/-- A word access of which a byte has no backing faults with the accessed address, at even addresses and, under the two
readings of MISALIGNED_WORD that go on, at odd ones: loads, stores, calls, `ret`, both pops of `reti`, and both pushes of
interrupt entry (R52, R53, R58, R272, R279, R280; D21, log entry 26). The odd addresses are D7 (log entry 8); the address of
a load or store rests on D8 (log entry 9); that a call accesses SP - 2 and `ret` SP is R244 to R246, by D5 (log entry 6);
the addresses of `reti` and of interrupt entry are D19 (log entry 23). -/
def Obligations.UnbackedWordAccessFaults : Prop :=
  ∀ s : State,
    (∀ (i : Instr) (ea b : Word), s.AccessesWord i ea → s.FirstByte ea b → ¬ s.Backed b →
      exec i s = .fault (.unmappedAccess ea)) ∧
    (∀ vector b c : Word, s.pfx = none → s.cfg.irqModel = .stack vector → s.FirstByte s.sp b → s.Backed b →
      s.FirstByte (s.sp + 2#16) c → ¬ s.Backed c → exec .reti s = .fault (.unmappedAccess (s.sp + 2#16))) ∧
    (∀ vector b : Word, s.TakesRequest vector → s.FirstByte (s.sp - 2#16) b → ¬ s.Backed b →
      step s = .fault (.unmappedAccess (s.sp - 2#16))) ∧
    (∀ vector b c : Word, s.TakesRequest vector → s.FirstByte (s.sp - 2#16) b → s.Backed b →
      s.FirstByte (s.sp - 4#16) c → ¬ s.Backed c → step s = .fault (.unmappedAccess (s.sp - 4#16)))

/-- A byte access to an address that nothing backs faults with that address; with the default DMEM_VALID no step faults
so (R52, R270; D21, log entry 26; the effective address rests on D8, log entry 9). -/
def Obligations.UnbackedAccessFaults : Prop :=
  (∀ (s : State) (i : Instr) (ea : Word), s.dmemValid ea = false →
    (∃ rd rs k, (i = .movzb_mr rs k rd ∨ i = .movsb_mr rs k rd ∨ i = .movb_rm rd rs k) ∧ ea = s.x rs + s.immZ k) ∨
      (∃ rd k, (i = .movsb_ar k rd ∨ i = .movb_ra rd k) ∧ ea = s.immZ k) ∨
      (∃ rd k, (i = .movsb_qr k rd ∨ i = .movb_rq rd k) ∧ ea = s.sp + s.immZ k) ∨
      (∃ rd rs rn, (i = .movzb_nr rs rn rd ∨ i = .movsb_nr rs rn rd ∨ i = .movb_rn rd rs rn) ∧
        ea = s.x rs + s.x rn ∧ s.pfx = none) →
    exec i s = .fault (.unmappedAccess ea)) ∧
  (∀ (s : State) (a : Word), s.cfg.dmem = Config.default.dmem → step s ≠ .fault (.unmappedAccess a))

/-- A word stored by any of the four word stores is the word that any of the four word loads puts into its register, when
its effective address is the same and the two stored bytes are as the store left them, whatever else has happened in
between (R51 to R53, R65; D22, log entry 27). It holds in either byte order (D6, log entry 7), with or without a prefix on
either, and at odd addresses under the two readings of MISALIGNED_WORD that go on (D7, log entry 8); the effective address
rests on D8 (log entry 9), the load's flag frame on D13 (log entry 14). -/
def Obligations.StoredWordIsLoadedBack : Prop :=
  ∀ (s t u : State) (i j : Instr) (ea c : Word) (rd q : Reg), s.StoresWord i rd ea → exec i s = .next t →
    s.FirstByte ea c → u.cfg = s.cfg → u.byteAt c = t.byteAt c → u.byteAt (c + 1#16) = t.byteAt (c + 1#16) →
    u.LoadsWord j q ea →
    exec j u = .next { u with regs := u.regs.set q (s.x rd), pc := u.nextPc, pfx := none }

/-! ### Control flow -/

/-- The branches and jumps: a PC-relative target is the branch word's address plus BR_BASE plus the offset, taken by T or
always; `jmp Rd` goes to Rd; nothing but pc and the pending prefix changes (R240 to R243; D3, log entry 4). With byte-addressed
program memory the offset is unscaled as well and so counts bytes (the model's choice, log entry 2). -/
def Obligations.BranchesGoToTheirTarget : Prop :=
  ∀ s : State,
    (∀ k : BitVec 9,
      (s.sr.t = false → exec (.br_nt k) s = .next { s with pc := s.pc + s.cfg.brBase + s.immS k, pfx := none }) ∧
      (s.sr.t = true → exec (.br_nt k) s = .next { s with pc := s.nextPc, pfx := none }) ∧
      (s.sr.t = true → exec (.br_t k) s = .next { s with pc := s.pc + s.cfg.brBase + s.immS k, pfx := none }) ∧
      (s.sr.t = false → exec (.br_t k) s = .next { s with pc := s.nextPc, pfx := none }) ∧
      exec (.jmp_k k) s = .next { s with pc := s.pc + s.cfg.brBase + s.immS k, pfx := none }) ∧
    (∀ rd : Reg, s.pfx = none → exec (.jmp_r rd) s = .next { s with pc := s.x rd })

/-- Both calls push the address of the next word on the full-descending stack and go to their target; no other byte and no
flag changes (R244, R245; D4, D5). With byte-addressed program memory the target and the pushed address are byte addresses,
unscaled (the model's choice, log entry 2). -/
def Obligations.CallsPushTheReturnAddress : Prop :=
  ∀ (s : State) (i : Instr) (target : Word),
    (∃ k, i = .call k ∧ target = s.immZ k) ∨ (∃ rd, i = .call_r rd ∧ target = s.x rd ∧ s.pfx = none) →
    s.WordAccess (s.sp - 2#16) →
    ∃ t : State, exec i s = .next t ∧
      t = { s with mem := t.mem, sp := s.sp - 2#16, pc := target, pfx := none } ∧
      wordValue s.cfg.byteOrder (t.byteAt (s.sp - 2#16)) (t.byteAt (s.sp - 1#16)) = s.nextPc.toNat ∧
      ∀ a, a ≠ s.sp - 2#16 → a ≠ s.sp - 1#16 → t.byteAt a = s.byteAt a

/-- `ret` pops the word at SP into the pc; nothing else changes (R246; D5). -/
def Obligations.RetPopsThePc : Prop :=
  ∀ s : State, s.pfx = none → s.WordAccess s.sp →
    ∃ ra : Word, ra.toNat = wordValue s.cfg.byteOrder (s.byteAt s.sp) (s.byteAt (s.sp + 1#16)) ∧
      exec .ret s = .next { s with sp := s.sp + 2#16, pc := ra }

/-- A `ret` that finds SP and the stacked word as the call left them, whatever else the subroutine changed in registers,
flags and memory, continues after the call with SP as it was before the call (R248; D5, log entry 6). The stacked word
stands at SP - 2; for an odd SP its bytes are those of the readings of MISALIGNED_WORD that go on (log entry 8). -/
def Obligations.RetReturnsToAfterTheCall : Prop :=
  ∀ (s t u : State) (i : Instr) (c : Word), (∃ k, i = .call k) ∨ (∃ rd, i = .call_r rd) → exec i s = .next t →
    s.FirstByte (s.sp - 2#16) c → u.cfg = t.cfg → u.sp = t.sp → u.pfx = none →
    u.byteAt c = t.byteAt c → u.byteAt (c + 1#16) = t.byteAt (c + 1#16) →
    exec .ret u = .next { u with sp := s.sp, pc := s.nextPc }

/-! ### System -/

/-- `dint` and `eint` write I and nothing else but pc (R255, R256; D23). -/
def Obligations.InterruptEnableFollowsEintAndDint : Prop :=
  ∀ s : State, s.pfx = none →
    exec .eint s = .next { s with sr := { s.sr with i := true }, pc := s.nextPc } ∧
    exec .dint s = .next { s with sr := { s.sr with i := false }, pc := s.nextPc }

/-- `halt` sets halted, changes nothing else but pc, and no step follows it (R258; D20). -/
def Obligations.HaltEndsTheRun : Prop :=
  ∀ s : State, s.pfx = none →
    exec .halt s = .next { s with halted := true, pc := s.nextPc } ∧
    ∀ t, exec .halt s = .next t → step t = .refused .halted

/-- The 15 reserved slots fault and so do the three not-implemented ones, with the word, whether or not a prefix is pending
(R97, R98, R191 to R193, R272; D16). -/
def Obligations.SlotsWithoutInstructionFault : Prop :=
  ∀ (i : Instr) (s : State),
    (i.status = .reserved → exec i s = .fault (.reservedInstruction s.word)) ∧
    (i.status = .notImplemented → exec i s = .fault (.notImplemented s.word))

/-! ### Promises over all instructions -/

/-- No instruction changes a general register other than its Rd (R21; which field is Rd is R100, D14, log entry 15; that no
load or store changes its base register is R200). -/
def Obligations.OnlyTheDestinationRegisterChanges : Prop :=
  ∀ (i : Instr) (s t : State) (r : Reg), exec i s = .next t → i.dest ≠ some r → t.x r = s.x r

/-- No instruction outside the spec's list of writers changes SP, and no instruction but `halt` changes halted (R23, R36; the
list is the spec's own derivation). Interrupt entry, which R23 lists as well, is no instruction: see
AcceptedRequestPushesPcAndFlags. -/
def Obligations.OnlyListedInstructionsChangeSP : Prop :=
  ∀ (i : Instr) (s t : State), exec i s = .next t →
    (i.writesSP = false → t.sp = s.sp) ∧ (i ≠ .halt → t.halted = s.halted)

/-- Every flag changes only by the instructions that the table of R34 lists for it (R34: the spec's own derivation;
D13). -/
def Obligations.FlagsChangeOnlyAsTabled : Prop :=
  ∀ (i : Instr) (s t : State), exec i s = .next t →
    (i.writesC = false → t.sr.c = s.sr.c) ∧ (i.writesZ = false → t.sr.z = s.sr.z) ∧
    (i.writesT = false → t.sr.t = s.sr.t) ∧ (i.writesI = false → t.sr.i = s.sr.i)

/-- No instruction but the stores and the calls changes data memory (R58). Interrupt entry, which R58 lists as well, is no
instruction: see AcceptedRequestPushesPcAndFlags. -/
def Obligations.OnlyStoresAndCallsChangeMemory : Prop :=
  ∀ (i : Instr) (s t : State), exec i s = .next t → i.writesMem = false → t.mem = s.mem

/-- Every instruction outside the branch family and `reti` ends at the next word (R25, R26; D1, D2). -/
def Obligations.PcAdvancesOutsideTheBranchFamily : Prop :=
  ∀ (i : Instr) (s t : State), exec i s = .next t → i.writesPC = false → t.pc = s.nextPc

/-- No run changes program memory, from any state, by instructions or by interrupts (R54, R68; D22, log entry 27); nor does
it change the parameters, which is the model's choice (log entry 1). -/
def Obligations.RunsKeepProgramMemory : Prop :=
  ∀ s t : State, Reaches s t → t.pmem = s.pmem ∧ t.cfg = s.cfg

/-- From a state whose memories are in their canonical form every step leads to such a state, so every run does. The form
(strictly rising addresses below 65536) is the model's own representation of R38 and R39 (log entry 21); the spec gives
none. -/
def Obligations.StepsKeepCanonicalMemory : Prop :=
  (∀ s t : State, s.Canonical → step s = .next t → t.Canonical) ∧
  (∀ s t : State, s.Canonical → Reaches s t → t.Canonical)

/-- Right after reset: the pc is RESET_PC = 0, interrupts are disabled, no prefix is pending, the processor is not halted,
and no byte of data memory is written (R41, R300; D18, log entry 19). That the parameters have their defaults is log entry
1, and the canonical form of both memories is the model's own (log entry 21). Of R0..R7, SP, T, C and Z nothing is said (log
entry 20). -/
def Obligations.ResetLeavesTheStatedValues : Prop :=
  State.reset.cfg = Config.default ∧ State.reset.pc = 0x0000#16 ∧ State.reset.sr.i = false ∧
  State.reset.pfx = none ∧ State.reset.halted = false ∧ (∀ a, Cells.lookup State.reset.mem a = none) ∧
  State.reset.Canonical

/-! ### The NOP's word -/

/-- The spec's one worked encoding: the word 0x0000 is `mov r0, r0`, of format R2 with opcode 00000, bit 6 zero and both
register fields 000, and no other instruction has that word (R84). -/
def Obligations.NopIsTheAllZeroWord : Prop :=
  decode (0b0000#4 ++ 0b00000#5 ++ 0b0#1 ++ 0b000#3 ++ 0b000#3) = some (.mov_rr .r0 .r0) ∧
  0b0000#4 ++ 0b00000#5 ++ 0b0#1 ++ 0b000#3 ++ 0b000#3 = 0x0000#16 ∧ (Instr.mov_rr .r0 .r0).format = .r2 ∧
  ∀ i : Instr, encode i = 0x0000#16 ↔ i = .mov_rr .r0 .r0
end

