-- ==== Sys2Proof/Laws/Cells.lean ====
section
/-! SUPPORT. The sparse memories: a read after a write, and the canonical form that every write keeps. -/

namespace Sys2Proof.Machine

variable {α : Type}

theorem Cells.lookup_write (m : List (Nat × α)) (a b : Nat) (v : α) :
    Cells.lookup (Cells.write m a v) b = if b = a then some v else Cells.lookup m b := by
  induction m with
  | nil => simp [Cells.write, Cells.lookup]
  | cons p m ih =>
    obtain ⟨c, u⟩ := p
    simp only [Cells.write]
    split
    · simp [Cells.lookup]
    · split
      · subst_vars
        simp only [Cells.lookup]
        split <;> simp_all
      · simp only [Cells.lookup, ih]
        split
        · subst_vars
          rw [if_neg]
          omega
        · rfl

@[simp] theorem Cells.lookup_write_self (m : List (Nat × α)) (a : Nat) (v : α) :
    Cells.lookup (Cells.write m a v) a = some v := by
  simp [Cells.lookup_write]

theorem Cells.lookup_write_ne (m : List (Nat × α)) {a b : Nat} (v : α) (h : b ≠ a) :
    Cells.lookup (Cells.write m a v) b = Cells.lookup m b := by
  simp [Cells.lookup_write, h]

/-- A write adds no address but its own. -/
theorem Cells.mem_write {m : List (Nat × α)} {a : Nat} {v : α} {p : Nat × α} (h : p ∈ Cells.write m a v) :
    p = (a, v) ∨ p ∈ m := by
  induction m with
  | nil => simpa [Cells.write] using h
  | cons q m ih =>
    simp only [Cells.write] at h
    split at h
    · simpa using h
    · split at h
      · rcases List.mem_cons.1 h with h | h
        · exact .inl h
        · exact .inr (List.mem_cons_of_mem _ h)
      · rcases List.mem_cons.1 h with h | h
        · exact .inr (h ▸ List.mem_cons_self ..)
        · exact (ih h).imp id (List.mem_cons_of_mem _)

/-- A write inside the address space keeps the canonical form. -/
theorem Cells.wf_write {m : List (Nat × α)} {a : Nat} (v : α) (h : Cells.wf m) (ha : a < 65536) :
    Cells.wf (Cells.write m a v) := by
  refine ⟨?_, fun p hp => ?_⟩
  · obtain ⟨hs, -⟩ := h
    induction m with
    | nil => simp [Cells.write]
    | cons q m ih =>
      obtain ⟨hq, hm⟩ := List.pairwise_cons.1 hs
      simp only [Cells.write]
      split
      · refine List.pairwise_cons.2 ⟨fun p hp => ?_, hs⟩
        rcases List.mem_cons.1 hp with rfl | hp
        · assumption
        · exact Nat.lt_trans ‹_› (hq p hp)
      · split
        · subst_vars
          exact List.pairwise_cons.2 ⟨hq, hm⟩
        · refine List.pairwise_cons.2 ⟨fun p hp => ?_, ih hm⟩
          rcases Cells.mem_write hp with rfl | hp
          · exact Nat.lt_of_le_of_ne (Nat.le_of_not_lt ‹_›) (Ne.symm ‹_›)
          · exact hq p hp
  · rcases Cells.mem_write hp with rfl | hp
    · exact ha
    · exact h.2 p hp

theorem State.putByte_wf (s : State) (a : Word) (v : Byte) (h : Memory.wf s.mem) : Memory.wf (s.putByte a v).mem :=
  Cells.wf_write v h a.isLt

theorem State.putWord_wf (s : State) (b v : Word) (h : Memory.wf s.mem) : Memory.wf (s.putWord b v).mem :=
  State.putByte_wf _ _ _ (State.putByte_wf _ _ _ h)

/-- One byte after a byte store: the stored value at its address, the old byte elsewhere (R53). -/
theorem State.byteAt_putByte (s : State) (a b : Word) (v : Byte) :
    (s.putByte a v).byteAt b = if b = a then v else s.byteAt b := by
  by_cases h : b = a
  · simp [State.byteAt, State.putByte, h]
  · have : b.toNat ≠ a.toNat := fun e => h (BitVec.eq_of_toNat_eq e)
    simp [State.byteAt, State.putByte, Cells.lookup_write, h, this]

/-- One byte after a word store: the two stored bytes at their addresses, the old byte elsewhere (R51, R53). -/
theorem State.byteAt_putWord (s : State) (b v a : Word) :
    (s.putWord b v).byteAt a =
      if a = b + 1#16 then secondByte s.cfg.byteOrder v
      else if a = b then firstByte s.cfg.byteOrder v else s.byteAt a := by
  simp [State.putWord, State.byteAt_putByte]

/-- The two bytes of a word make the word again (R51). -/
@[simp] theorem joinBytes_first_second (o : ByteOrder) (v : Word) :
    joinBytes o (firstByte o v) (secondByte o v) = v := by
  cases o <;> refine BitVec.eq_of_getLsbD_eq fun i hi => ?_ <;>
    simp only [joinBytes, firstByte, secondByte, BitVec.getLsbD_append, BitVec.getLsbD_extractLsb'] <;>
    rcases Nat.lt_or_ge i 8 with h | h
  · simp [h]
  · simp [Nat.not_lt.2 h, Nat.add_sub_cancel' h, show i - 8 < 8 by omega]
  · simp [h]
  · simp [Nat.not_lt.2 h, Nat.add_sub_cancel' h, show i - 8 < 8 by omega]

end Sys2Proof.Machine
end

