-- ==== Sys2Proof/Laws/Encoding.lean ====
section
/-! SUPPORT. The fields of an assembled word read back as they were put in, format by format (R81, R88). -/

namespace Sys2Proof

@[simp] theorem Reg.ofBits_bits (r : Reg) : Reg.ofBits r.bits = r := by cases r <;> rfl

@[simp] theorem Reg.bits_ofBits (b : BitVec 3) : (Reg.ofBits b).bits = b := by
  revert b
  decide

@[simp] theorem Cond.ofBits_bits (c : Cond) : Cond.ofBits c.bits = c := by cases c <;> rfl

@[simp] theorem Cond.bits_ofBits (b : BitVec 3) : (Cond.ofBits b).bits = b := by
  revert b
  decide

/-! ### Format I2 -/

theorem formI2_op (op k : BitVec 5) (s d : BitVec 3) : (formI2 op k s d).extractLsb' 11 5 = op := by
  refine BitVec.eq_of_getLsbD_eq fun i hi => ?_
  simp only [formI2, BitVec.getLsbD_extractLsb', BitVec.getLsbD_append]
  interval_cases i <;> simp

theorem formI2_top (op k : BitVec 5) (s d : BitVec 3) : (formI2 op k s d).extractLsb' 14 2 = op.extractLsb' 3 2 := by
  refine BitVec.eq_of_getLsbD_eq fun i hi => ?_
  simp only [formI2, BitVec.getLsbD_extractLsb', BitVec.getLsbD_append]
  interval_cases i <;> simp

theorem formI2_k (op k : BitVec 5) (s d : BitVec 3) : imm5Of (formI2 op k s d) = k := by
  refine BitVec.eq_of_getLsbD_eq fun i hi => ?_
  simp only [imm5Of, formI2, BitVec.getLsbD_extractLsb', BitVec.getLsbD_append]
  interval_cases i <;> simp

theorem formI2_rs (op k : BitVec 5) (s d : BitVec 3) : rsOf (formI2 op k s d) = Reg.ofBits s := by
  refine congrArg Reg.ofBits (BitVec.eq_of_getLsbD_eq fun i hi => ?_)
  simp only [formI2, BitVec.getLsbD_extractLsb', BitVec.getLsbD_append]
  interval_cases i <;> simp

theorem formI2_rd (op k : BitVec 5) (s d : BitVec 3) : rdOf (formI2 op k s d) = Reg.ofBits d := by
  refine congrArg Reg.ofBits (BitVec.eq_of_getLsbD_eq fun i hi => ?_)
  simp only [formI2, BitVec.getLsbD_extractLsb', BitVec.getLsbD_append]
  interval_cases i <;> simp

theorem formI2_cc (op k : BitVec 5) (s d : BitVec 3) : ccOf (formI2 op k s d) = Cond.ofBits d := by
  refine congrArg Cond.ofBits (BitVec.eq_of_getLsbD_eq fun i hi => ?_)
  simp only [formI2, BitVec.getLsbD_extractLsb', BitVec.getLsbD_append]
  interval_cases i <;> simp

/-- The mask of the format keeps the opcode and clears every operand. -/
theorem formI2_mask (op k : BitVec 5) (s d : BitVec 3) : formI2 op k s d &&& 0xF800#16 = formI2 op 0#5 0#3 0#3 := by
  refine BitVec.eq_of_getLsbD_eq fun i hi => ?_
  simp only [formI2, BitVec.getLsbD_and, BitVec.getLsbD_append]
  interval_cases i <;> simp

/-! ### Format P -/

theorem formP_op (op : BitVec 5) (k : BitVec 11) : (formP op k).extractLsb' 11 5 = op := by
  refine BitVec.eq_of_getLsbD_eq fun i hi => ?_
  simp only [formP, BitVec.getLsbD_extractLsb', BitVec.getLsbD_append]
  interval_cases i <;> simp

theorem formP_top (op : BitVec 5) (k : BitVec 11) : (formP op k).extractLsb' 14 2 = op.extractLsb' 3 2 := by
  refine BitVec.eq_of_getLsbD_eq fun i hi => ?_
  simp only [formP, BitVec.getLsbD_extractLsb', BitVec.getLsbD_append]
  interval_cases i <;> simp

theorem formP_k (op : BitVec 5) (k : BitVec 11) : imm11Of (formP op k) = k := by
  refine BitVec.eq_of_getLsbD_eq fun i hi => ?_
  simp only [imm11Of, formP, BitVec.getLsbD_extractLsb', BitVec.getLsbD_append]
  interval_cases i <;> simp

/-- The mask of the format keeps the opcode and clears every operand. -/
theorem formP_mask (op : BitVec 5) (k : BitVec 11) : formP op k &&& 0xF800#16 = formP op 0#11 := by
  refine BitVec.eq_of_getLsbD_eq fun i hi => ?_
  simp only [formP, BitVec.getLsbD_and, BitVec.getLsbD_append]
  interval_cases i <;> simp

/-! ### Format I1 -/

theorem formI1_op (op : BitVec 5) (k : BitVec 8) (d : BitVec 3) : (formI1 op k d).extractLsb' 11 5 = op := by
  refine BitVec.eq_of_getLsbD_eq fun i hi => ?_
  simp only [formI1, BitVec.getLsbD_extractLsb', BitVec.getLsbD_append]
  interval_cases i <;> simp

theorem formI1_top (op : BitVec 5) (k : BitVec 8) (d : BitVec 3) : (formI1 op k d).extractLsb' 14 2 = op.extractLsb' 3 2 := by
  refine BitVec.eq_of_getLsbD_eq fun i hi => ?_
  simp only [formI1, BitVec.getLsbD_extractLsb', BitVec.getLsbD_append]
  interval_cases i <;> simp

theorem formI1_k (op : BitVec 5) (k : BitVec 8) (d : BitVec 3) : imm8Of (formI1 op k d) = k := by
  refine BitVec.eq_of_getLsbD_eq fun i hi => ?_
  simp only [imm8Of, formI1, BitVec.getLsbD_extractLsb', BitVec.getLsbD_append]
  interval_cases i <;> simp

theorem formI1_rd (op : BitVec 5) (k : BitVec 8) (d : BitVec 3) : rdOf (formI1 op k d) = Reg.ofBits d := by
  refine congrArg Reg.ofBits (BitVec.eq_of_getLsbD_eq fun i hi => ?_)
  simp only [formI1, BitVec.getLsbD_extractLsb', BitVec.getLsbD_append]
  interval_cases i <;> simp

/-- The mask of the format keeps the opcode and clears every operand. -/
theorem formI1_mask (op : BitVec 5) (k : BitVec 8) (d : BitVec 3) : formI1 op k d &&& 0xF800#16 = formI1 op 0#8 0#3 := by
  refine BitVec.eq_of_getLsbD_eq fun i hi => ?_
  simp only [formI1, BitVec.getLsbD_and, BitVec.getLsbD_append]
  interval_cases i <;> simp

/-! ### Format R3 -/

theorem formR3_op (op : BitVec 5) (n s d : BitVec 3) : (formR3 op n s d).extractLsb' 9 5 = op := by
  refine BitVec.eq_of_getLsbD_eq fun i hi => ?_
  simp only [formR3, BitVec.getLsbD_extractLsb', BitVec.getLsbD_append]
  interval_cases i <;> simp

theorem formR3_top (op : BitVec 5) (n s d : BitVec 3) : (formR3 op n s d).extractLsb' 14 2 = 0b00#2 := by
  refine BitVec.eq_of_getLsbD_eq fun i hi => ?_
  simp only [formR3, BitVec.getLsbD_extractLsb', BitVec.getLsbD_append]
  interval_cases i <;> simp

theorem formR3_rn (op : BitVec 5) (n s d : BitVec 3) : rnOf (formR3 op n s d) = Reg.ofBits n := by
  refine congrArg Reg.ofBits (BitVec.eq_of_getLsbD_eq fun i hi => ?_)
  simp only [formR3, BitVec.getLsbD_extractLsb', BitVec.getLsbD_append]
  interval_cases i <;> simp

theorem formR3_rs (op : BitVec 5) (n s d : BitVec 3) : rsOf (formR3 op n s d) = Reg.ofBits s := by
  refine congrArg Reg.ofBits (BitVec.eq_of_getLsbD_eq fun i hi => ?_)
  simp only [formR3, BitVec.getLsbD_extractLsb', BitVec.getLsbD_append]
  interval_cases i <;> simp

theorem formR3_rd (op : BitVec 5) (n s d : BitVec 3) : rdOf (formR3 op n s d) = Reg.ofBits d := by
  refine congrArg Reg.ofBits (BitVec.eq_of_getLsbD_eq fun i hi => ?_)
  simp only [formR3, BitVec.getLsbD_extractLsb', BitVec.getLsbD_append]
  interval_cases i <;> simp

theorem formR3_cc (op : BitVec 5) (n s d : BitVec 3) : ccOf (formR3 op n s d) = Cond.ofBits d := by
  refine congrArg Cond.ofBits (BitVec.eq_of_getLsbD_eq fun i hi => ?_)
  simp only [formR3, BitVec.getLsbD_extractLsb', BitVec.getLsbD_append]
  interval_cases i <;> simp

/-- The mask of the format keeps the opcode and clears every operand. -/
theorem formR3_mask (op : BitVec 5) (n s d : BitVec 3) : formR3 op n s d &&& 0xFE00#16 = formR3 op 0#3 0#3 0#3 := by
  refine BitVec.eq_of_getLsbD_eq fun i hi => ?_
  simp only [formR3, BitVec.getLsbD_and, BitVec.getLsbD_append]
  interval_cases i <;> simp

/-! ### Format J -/

theorem formJ_op (op : BitVec 5) (k : BitVec 9) : (formJ op k).extractLsb' 9 5 = op := by
  refine BitVec.eq_of_getLsbD_eq fun i hi => ?_
  simp only [formJ, BitVec.getLsbD_extractLsb', BitVec.getLsbD_append]
  interval_cases i <;> simp

theorem formJ_top (op : BitVec 5) (k : BitVec 9) : (formJ op k).extractLsb' 14 2 = 0b00#2 := by
  refine BitVec.eq_of_getLsbD_eq fun i hi => ?_
  simp only [formJ, BitVec.getLsbD_extractLsb', BitVec.getLsbD_append]
  interval_cases i <;> simp

theorem formJ_k (op : BitVec 5) (k : BitVec 9) : imm9Of (formJ op k) = k := by
  refine BitVec.eq_of_getLsbD_eq fun i hi => ?_
  simp only [imm9Of, formJ, BitVec.getLsbD_extractLsb', BitVec.getLsbD_append]
  interval_cases i <;> simp

/-- The mask of the format keeps the opcode and clears every operand. -/
theorem formJ_mask (op : BitVec 5) (k : BitVec 9) : formJ op k &&& 0xFE00#16 = formJ op 0#9 := by
  refine BitVec.eq_of_getLsbD_eq fun i hi => ?_
  simp only [formJ, BitVec.getLsbD_and, BitVec.getLsbD_append]
  interval_cases i <;> simp

/-! ### Format R2 -/

theorem formR2_op (op : BitVec 5) (s d : BitVec 3) : (formR2 op s d).extractLsb' 7 5 = op := by
  refine BitVec.eq_of_getLsbD_eq fun i hi => ?_
  simp only [formR2, BitVec.getLsbD_extractLsb', BitVec.getLsbD_append]
  interval_cases i <;> simp

theorem formR2_top (op : BitVec 5) (s d : BitVec 3) : (formR2 op s d).extractLsb' 12 4 = 0b0000#4 := by
  refine BitVec.eq_of_getLsbD_eq fun i hi => ?_
  simp only [formR2, BitVec.getLsbD_extractLsb', BitVec.getLsbD_append]
  interval_cases i <;> simp

theorem formR2_rs (op : BitVec 5) (s d : BitVec 3) : rsOf (formR2 op s d) = Reg.ofBits s := by
  refine congrArg Reg.ofBits (BitVec.eq_of_getLsbD_eq fun i hi => ?_)
  simp only [formR2, BitVec.getLsbD_extractLsb', BitVec.getLsbD_append]
  interval_cases i <;> simp

theorem formR2_rd (op : BitVec 5) (s d : BitVec 3) : rdOf (formR2 op s d) = Reg.ofBits d := by
  refine congrArg Reg.ofBits (BitVec.eq_of_getLsbD_eq fun i hi => ?_)
  simp only [formR2, BitVec.getLsbD_extractLsb', BitVec.getLsbD_append]
  interval_cases i <;> simp

/-- The mask of the format keeps the opcode and clears every operand. -/
theorem formR2_mask (op : BitVec 5) (s d : BitVec 3) : formR2 op s d &&& 0xFF80#16 = formR2 op 0#3 0#3 := by
  refine BitVec.eq_of_getLsbD_eq fun i hi => ?_
  simp only [formR2, BitVec.getLsbD_and, BitVec.getLsbD_append]
  interval_cases i <;> simp

/-! ### The decoder chooses the format by the opcode (R85) -/

theorem decode_formI2 (op k : BitVec 5) (s d : BitVec 3) (lo : 0b10100 ≤ op.toNat) (hi : op.toNat < 0b11110) :
    decode (formI2 op k s d) = decodeI2 (formI2 op k s d) := by
  have h : ∀ o : BitVec 5, 0b10100 ≤ o.toNat → o.extractLsb' 3 2 ≠ 0b00#2 := by decide
  rw [decode, formI2_top, formI2_op, if_pos (h op lo), if_neg (by omega), if_pos lo]

theorem decode_formP (op : BitVec 5) (k : BitVec 11) (lo : 0b11110 ≤ op.toNat) :
    decode (formP op k) = decodeP (formP op k) := by
  have h : ∀ o : BitVec 5, 0b11110 ≤ o.toNat → o.extractLsb' 3 2 ≠ 0b00#2 := by decide
  rw [decode, formP_top, formP_op, if_pos (h op lo), if_pos lo]

theorem decode_formI1 (op : BitVec 5) (k : BitVec 8) (d : BitVec 3) (lo : 0b01000 ≤ op.toNat)
    (hi : op.toNat < 0b10100) : decode (formI1 op k d) = decodeI1 (formI1 op k d) := by
  have h : ∀ o : BitVec 5, 0b01000 ≤ o.toNat → o.extractLsb' 3 2 ≠ 0b00#2 := by decide
  rw [decode, formI1_top, formI1_op, if_pos (h op lo), if_neg (by omega), if_neg (by omega)]

theorem decode_formR3 (op : BitVec 5) (n s d : BitVec 3) (lo : 0b01000 ≤ op.toNat) (hi : op.toNat < 0b11100) :
    decode (formR3 op n s d) = decodeR3 (formR3 op n s d) := by
  rw [decode, formR3_top, formR3_op, if_neg (by decide), if_neg (by omega), if_pos lo]

theorem decode_formJ (op : BitVec 5) (k : BitVec 9) (lo : 0b11100 ≤ op.toNat) :
    decode (formJ op k) = decodeJ (formJ op k) := by
  rw [decode, formJ_top, formJ_op, if_neg (by decide), if_pos lo]

theorem decode_formR2 (op : BitVec 5) (s d : BitVec 3) : decode (formR2 op s d) = decodeR2 (formR2 op s d) := by
  have h2 : (formR2 op s d).extractLsb' 14 2 = 0b00#2 := by
    refine BitVec.eq_of_getLsbD_eq fun i hi => ?_
    simp only [formR2, BitVec.getLsbD_extractLsb', BitVec.getLsbD_append]
    interval_cases i <;> simp
  have h9 : ((formR2 op s d).extractLsb' 9 5).toNat < 0b01000 := by
    have h : (formR2 op s d).extractLsb' 9 5 = 0b00#2 ++ op.extractLsb' 2 3 := by
      refine BitVec.eq_of_getLsbD_eq fun i hi => ?_
      simp only [formR2, BitVec.getLsbD_extractLsb', BitVec.getLsbD_append]
      interval_cases i <;> simp
    rw [h]
    generalize op.extractLsb' 2 3 = x
    revert x
    decide
  rw [decode, h2, if_neg (by decide), if_neg (by omega), if_neg (by omega)]

end Sys2Proof
end

