-- ==== Sys2Proof/Laws/Flags.lean ====
section
/-! SUPPORT. The adder in integers: what ADD17 gives for sums and for differences (R10). -/

namespace Sys2Proof.Machine

theorem add17_r (a b : Word) (cin : Bool) : (add17 a b cin).r = a + b + (BitVec.ofBool cin).zeroExtend 16 := by
  apply BitVec.eq_of_toNat_eq
  cases cin <;> simp [add17, BitVec.extractLsb'_toNat]

theorem add17_z (a b : Word) (cin : Bool) : (add17 a b cin).z = ((add17 a b cin).r == 0#16) := rfl

theorem add17_c (a b : Word) (cin : Bool) :
    (add17 a b cin).c = decide (65536 ≤ a.toNat + b.toNat + cin.toNat) := by
  have ha := a.isLt
  have hb := b.isLt
  cases cin <;>
    simp only [add17, ← BitVec.getLsbD_eq_getElem, BitVec.getLsbD, Nat.testBit_eq_decide_div_mod_eq] <;>
    simp <;> omega

/-- After `a - b` the carry says that there was no borrow (R10). -/
theorem add17_sub_c (a b : Word) : (add17 a (~~~b) true).c = decide (b.toNat ≤ a.toNat) := by
  rw [add17_c]
  have := b.isLt
  simp only [BitVec.toNat_not, Bool.toNat_true, decide_eq_decide]
  omega

theorem add17_sub_r (a b : Word) : (add17 a (~~~b) true).r = a - b := by
  rw [add17_r]
  apply BitVec.eq_of_toNat_eq
  simp [BitVec.toNat_sub]
  omega

/-- A subtraction with the borrow `n` = 1 - cin (R135). -/
theorem add17_borrow_c (a b : Word) {cin : Bool} {n : Nat} (h : cin.toNat + n = 1) :
    (add17 a (~~~b) cin).c = decide (b.toNat + n ≤ a.toNat) := by
  rw [add17_c]
  have := b.isLt
  simp only [BitVec.toNat_not, decide_eq_decide]
  omega

theorem add17_borrow_r (a b : Word) {cin : Bool} {n : Nat} (h : cin.toNat + n = 1) :
    (add17 a (~~~b) cin).r.toNat = (a.toNat + 65536 + 65536 - b.toNat - n) % 65536 := by
  rw [add17_r]
  have := a.isLt
  have := b.isLt
  cases cin <;> simp at * <;> omega

/-! ### What the shared endings write -/

theorem beq_zero_eq_decide (r : Word) : (r == 0#16) = decide (r = 0#16) := by
  rw [Bool.eq_iff_iff, beq_iff_eq, decide_eq_true_eq]

theorem State.chainZ_eq (s : State) (z : Bool) : s.chainZ z = ((!s.cfg.zChain || s.sr.z) && z) := by
  unfold State.chainZ
  cases s.cfg.zChain <;> simp

theorem State.subCarry_eq (s : State) (c : Bool) : s.subCarry c = (s.cfg.subCIsNotBorrow == c) := by
  unfold State.subCarry
  cases s.cfg.subCIsNotBorrow <;> simp

theorem State.finishCZT_eq (s : State) (rd : Reg) (r : Word) (c z : Bool) :
    s.finishCZT rd r c z = .next { s with
      regs := s.regs.set rd r, pc := s.nextPc, pfx := none, sr := { i := s.sr.i, c := c, z := z, t := z } } := rfl

theorem State.finishLogic_eq (s : State) (rd : Reg) (a b r : Word) :
    ∃ c, s.finishLogic rd a b r = .next { s with
      regs := s.regs.set rd r, pc := s.nextPc, pfx := none, draws := s.draws + 1
      sr := { i := s.sr.i, c := c, z := r == 0#16, t := r == 0#16 } } := ⟨_, rfl⟩

theorem State.finishShift_eq (s : State) (rd : Reg) (a r : Word) :
    ∃ z t, s.finishShift rd a r = .next { s with
      regs := s.regs.set rd r, pc := s.nextPc, pfx := none, draws := s.draws + 1
      sr := { i := s.sr.i, c := a[0], z := z, t := t } } := ⟨_, _, rfl⟩

theorem State.cmp_eq (s : State) (cc : Cond) (a b : Word) :
    s.cmp cc a b = .next { s with
      pc := s.nextPc, pfx := none, sr := { s.sr with t := compareHolds cc a b true true } } := rfl

theorem State.cmpc_eq (s : State) (cc : Cond) (a b : Word) :
    s.cmpc cc a b = .next { s with
      pc := s.nextPc, pfx := none, sr := { s.sr with t := compareHolds cc a b s.subCarryIn (s.chainZ true) } } := rfl

end Sys2Proof.Machine
end

