-- ==== Sys2Proof/Laws/Regs.lean ====
section
/-! SUPPORT. Reading the register file after a write: no register is hard-wired (R21). -/

namespace Sys2Proof.Machine

theorem Regs.get_set (x : Regs) (r q : Reg) (v : Word) :
    (x.set r v).get q = if q = r then v else x.get q := by
  cases r <;> cases q <;> rfl

@[simp] theorem Regs.get_set_self (x : Regs) (r : Reg) (v : Word) : (x.set r v).get r = v := by
  simp [Regs.get_set]

theorem Regs.get_set_ne (x : Regs) {r q : Reg} (v : Word) (h : q ≠ r) : (x.set r v).get q = x.get q := by
  simp [Regs.get_set, h]

theorem State.x_setX (s : State) (r q : Reg) (v : Word) : (s.setX r v).x q = if q = r then v else s.x q :=
  Regs.get_set s.regs r q v

@[simp] theorem State.x_setX_self (s : State) (r : Reg) (v : Word) : (s.setX r v).x r = v :=
  Regs.get_set_self s.regs r v

theorem State.x_setX_ne (s : State) {r q : Reg} (v : Word) (h : q ≠ r) : (s.setX r v).x q = s.x q :=
  Regs.get_set_ne s.regs v h

end Sys2Proof.Machine
end

