-- ==== Sys2Proof/Laws/State.lean ====
section
/-! SUPPORT. One lemma for each field under each named update of the state, so that no proof unfolds a record update. -/

namespace Sys2Proof.Machine.State

/-! ### setX -/

@[simp] theorem setX_cfg (s : State) (r : Reg) (v : Word) : (s.setX r v).cfg = s.cfg := rfl
@[simp] theorem setX_regs (s : State) (r : Reg) (v : Word) : (s.setX r v).regs = s.regs.set r v := rfl
@[simp] theorem setX_sp (s : State) (r : Reg) (v : Word) : (s.setX r v).sp = s.sp := rfl
@[simp] theorem setX_pc (s : State) (r : Reg) (v : Word) : (s.setX r v).pc = s.pc := rfl
@[simp] theorem setX_sr (s : State) (r : Reg) (v : Word) : (s.setX r v).sr = s.sr := rfl
@[simp] theorem setX_pfx (s : State) (r : Reg) (v : Word) : (s.setX r v).pfx = s.pfx := rfl
@[simp] theorem setX_halted (s : State) (r : Reg) (v : Word) : (s.setX r v).halted = s.halted := rfl
@[simp] theorem setX_mem (s : State) (r : Reg) (v : Word) : (s.setX r v).mem = s.mem := rfl
@[simp] theorem setX_pmem (s : State) (r : Reg) (v : Word) : (s.setX r v).pmem = s.pmem := rfl
@[simp] theorem setX_irq (s : State) (r : Reg) (v : Word) : (s.setX r v).irq = s.irq := rfl
@[simp] theorem setX_draws (s : State) (r : Reg) (v : Word) : (s.setX r v).draws = s.draws := rfl

/-! ### putByte -/

@[simp] theorem putByte_cfg (s : State) (a : Word) (v : Byte) : (s.putByte a v).cfg = s.cfg := rfl
@[simp] theorem putByte_regs (s : State) (a : Word) (v : Byte) : (s.putByte a v).regs = s.regs := rfl
@[simp] theorem putByte_sp (s : State) (a : Word) (v : Byte) : (s.putByte a v).sp = s.sp := rfl
@[simp] theorem putByte_pc (s : State) (a : Word) (v : Byte) : (s.putByte a v).pc = s.pc := rfl
@[simp] theorem putByte_sr (s : State) (a : Word) (v : Byte) : (s.putByte a v).sr = s.sr := rfl
@[simp] theorem putByte_pfx (s : State) (a : Word) (v : Byte) : (s.putByte a v).pfx = s.pfx := rfl
@[simp] theorem putByte_halted (s : State) (a : Word) (v : Byte) : (s.putByte a v).halted = s.halted := rfl
@[simp] theorem putByte_mem (s : State) (a : Word) (v : Byte) : (s.putByte a v).mem = Cells.write s.mem a.toNat v := rfl
@[simp] theorem putByte_pmem (s : State) (a : Word) (v : Byte) : (s.putByte a v).pmem = s.pmem := rfl
@[simp] theorem putByte_irq (s : State) (a : Word) (v : Byte) : (s.putByte a v).irq = s.irq := rfl
@[simp] theorem putByte_draws (s : State) (a : Word) (v : Byte) : (s.putByte a v).draws = s.draws := rfl

/-! ### putWord -/

@[simp] theorem putWord_cfg (s : State) (b v : Word) : (s.putWord b v).cfg = s.cfg := rfl
@[simp] theorem putWord_regs (s : State) (b v : Word) : (s.putWord b v).regs = s.regs := rfl
@[simp] theorem putWord_sp (s : State) (b v : Word) : (s.putWord b v).sp = s.sp := rfl
@[simp] theorem putWord_pc (s : State) (b v : Word) : (s.putWord b v).pc = s.pc := rfl
@[simp] theorem putWord_sr (s : State) (b v : Word) : (s.putWord b v).sr = s.sr := rfl
@[simp] theorem putWord_pfx (s : State) (b v : Word) : (s.putWord b v).pfx = s.pfx := rfl
@[simp] theorem putWord_halted (s : State) (b v : Word) : (s.putWord b v).halted = s.halted := rfl
theorem putWord_mem (s : State) (b v : Word) : (s.putWord b v).mem =
    Cells.write (Cells.write s.mem b.toNat (firstByte s.cfg.byteOrder v)) (b + 1#16).toNat (secondByte s.cfg.byteOrder v) := rfl
@[simp] theorem putWord_pmem (s : State) (b v : Word) : (s.putWord b v).pmem = s.pmem := rfl
@[simp] theorem putWord_irq (s : State) (b v : Word) : (s.putWord b v).irq = s.irq := rfl
@[simp] theorem putWord_draws (s : State) (b v : Word) : (s.putWord b v).draws = s.draws := rfl

/-! ### jumpTo -/

@[simp] theorem jumpTo_cfg (s : State) (a : Word) : (s.jumpTo a).cfg = s.cfg := rfl
@[simp] theorem jumpTo_regs (s : State) (a : Word) : (s.jumpTo a).regs = s.regs := rfl
@[simp] theorem jumpTo_sp (s : State) (a : Word) : (s.jumpTo a).sp = s.sp := rfl
@[simp] theorem jumpTo_pc (s : State) (a : Word) : (s.jumpTo a).pc = a := rfl
@[simp] theorem jumpTo_sr (s : State) (a : Word) : (s.jumpTo a).sr = s.sr := rfl
@[simp] theorem jumpTo_pfx (s : State) (a : Word) : (s.jumpTo a).pfx = none := rfl
@[simp] theorem jumpTo_halted (s : State) (a : Word) : (s.jumpTo a).halted = s.halted := rfl
@[simp] theorem jumpTo_mem (s : State) (a : Word) : (s.jumpTo a).mem = s.mem := rfl
@[simp] theorem jumpTo_pmem (s : State) (a : Word) : (s.jumpTo a).pmem = s.pmem := rfl
@[simp] theorem jumpTo_irq (s : State) (a : Word) : (s.jumpTo a).irq = s.irq := rfl
@[simp] theorem jumpTo_draws (s : State) (a : Word) : (s.jumpTo a).draws = s.draws := rfl

/-! ### retire -/

@[simp] theorem retire_cfg (s : State) : (s.retire).cfg = s.cfg := rfl
@[simp] theorem retire_regs (s : State) : (s.retire).regs = s.regs := rfl
@[simp] theorem retire_sp (s : State) : (s.retire).sp = s.sp := rfl
@[simp] theorem retire_pc (s : State) : (s.retire).pc = s.nextPc := rfl
@[simp] theorem retire_sr (s : State) : (s.retire).sr = s.sr := rfl
@[simp] theorem retire_pfx (s : State) : (s.retire).pfx = none := rfl
@[simp] theorem retire_halted (s : State) : (s.retire).halted = s.halted := rfl
@[simp] theorem retire_mem (s : State) : (s.retire).mem = s.mem := rfl
@[simp] theorem retire_pmem (s : State) : (s.retire).pmem = s.pmem := rfl
@[simp] theorem retire_irq (s : State) : (s.retire).irq = s.irq := rfl
@[simp] theorem retire_draws (s : State) : (s.retire).draws = s.draws := rfl

/-! ### sampled -/

@[simp] theorem sampled_cfg (s : State) : (s.sampled).cfg = s.cfg := rfl
@[simp] theorem sampled_regs (s : State) : (s.sampled).regs = s.regs := rfl
@[simp] theorem sampled_sp (s : State) : (s.sampled).sp = s.sp := rfl
@[simp] theorem sampled_pc (s : State) : (s.sampled).pc = s.pc := rfl
@[simp] theorem sampled_sr (s : State) : (s.sampled).sr = s.sr := rfl
@[simp] theorem sampled_pfx (s : State) : (s.sampled).pfx = s.pfx := rfl
@[simp] theorem sampled_halted (s : State) : (s.sampled).halted = s.halted := rfl
@[simp] theorem sampled_mem (s : State) : (s.sampled).mem = s.mem := rfl
@[simp] theorem sampled_pmem (s : State) : (s.sampled).pmem = s.pmem := rfl
@[simp] theorem sampled_irq (s : State) : (s.sampled).irq = s.irq.tail := rfl
@[simp] theorem sampled_draws (s : State) : (s.sampled).draws = s.draws := rfl

/-! ### Reads that an update leaves alone -/

@[simp] theorem setX_nextPc (s : State) (r : Reg) (v : Word) : (s.setX r v).nextPc = s.nextPc := rfl
@[simp] theorem putByte_nextPc (s : State) (a : Word) (v : Byte) : (s.putByte a v).nextPc = s.nextPc := rfl
@[simp] theorem putWord_nextPc (s : State) (b v : Word) : (s.putWord b v).nextPc = s.nextPc := rfl
@[simp] theorem sampled_nextPc (s : State) : s.sampled.nextPc = s.nextPc := rfl
@[simp] theorem setX_byteAt (s : State) (r : Reg) (v a : Word) : (s.setX r v).byteAt a = s.byteAt a := rfl
@[simp] theorem jumpTo_byteAt (s : State) (p a : Word) : (s.jumpTo p).byteAt a = s.byteAt a := rfl
@[simp] theorem retire_byteAt (s : State) (a : Word) : s.retire.byteAt a = s.byteAt a := rfl
@[simp] theorem sampled_byteAt (s : State) (a : Word) : s.sampled.byteAt a = s.byteAt a := rfl
@[simp] theorem putByte_x (s : State) (a : Word) (v : Byte) (r : Reg) : (s.putByte a v).x r = s.x r := rfl
@[simp] theorem putWord_x (s : State) (b v : Word) (r : Reg) : (s.putWord b v).x r = s.x r := rfl
@[simp] theorem jumpTo_x (s : State) (p : Word) (r : Reg) : (s.jumpTo p).x r = s.x r := rfl
@[simp] theorem retire_x (s : State) (r : Reg) : s.retire.x r = s.x r := rfl
@[simp] theorem putByte_dmemValid (s : State) (a b : Word) (v : Byte) :
    (s.putByte a v).dmemValid b = s.dmemValid b := rfl
@[simp] theorem putWord_dmemValid (s : State) (a b v : Word) : (s.putWord a v).dmemValid b = s.dmemValid b := rfl

/-! ### Placing initial values (R303) -/

@[simp] theorem preset_cfg (s : State) (p : Preset) : (s.preset p).cfg = s.cfg := by cases p <;> rfl
@[simp] theorem preset_pfx (s : State) (p : Preset) : (s.preset p).pfx = s.pfx := by cases p <;> rfl
@[simp] theorem preset_halted (s : State) (p : Preset) : (s.preset p).halted = s.halted := by cases p <;> rfl
@[simp] theorem preset_mem (s : State) (p : Preset) : (s.preset p).mem = s.mem := by cases p <;> rfl
@[simp] theorem preset_pmem (s : State) (p : Preset) : (s.preset p).pmem = s.pmem := by cases p <;> rfl
@[simp] theorem preset_irq (s : State) (p : Preset) : (s.preset p).irq = s.irq := by cases p <;> rfl
@[simp] theorem preset_draws (s : State) (p : Preset) : (s.preset p).draws = s.draws := by cases p <;> rfl
@[simp] theorem preset_x_regs (s : State) (r : Reg) (v : Word) : (s.preset (.x r v)).regs = s.regs.set r v := rfl
@[simp] theorem preset_sp_sp (s : State) (v : Word) : (s.preset (.sp v)).sp = v := rfl
@[simp] theorem preset_pc_pc (s : State) (v : Word) : (s.preset (.pc v)).pc = v := rfl
@[simp] theorem preset_sr_sr (s : State) (f : SR) : (s.preset (.sr f)).sr = f := rfl

end Sys2Proof.Machine.State
end

