-- ==== Sys2Proof/Laws/Ops.lean ====
section
/-! SUPPORT. For each shared operation, once: everything it can do. -/

namespace Sys2Proof.Machine.State

variable {s t : State} {a v ra : Word} {b : Byte} {rd : Reg}

/-! ### The bytes a word access touches (R52, R56) -/

/-- At an even address whose two bytes are backed, a word access touches those two bytes. -/
theorem wordBase_aligned (he : a[0] = false) (h0 : s.dmemValid a = true) (h1 : s.dmemValid (a + 1#16) = true) :
    s.wordBase a = .ok a := by
  simp [wordBase, he, h0, h1]

/-- At an odd address, under the default parameter, it faults. -/
theorem wordBase_odd (ho : a[0] = true) (hc : s.cfg.misalignedWord = .fault) :
    s.wordBase a = .error (.misalignedWord a) := by
  simp [wordBase, ho, hc]

/-- Where it faults, the fault is one of two, with the accessed address. -/
theorem wordBase_error {f : Fault} (h : s.wordBase a = .error f) :
    f = .misalignedWord a ∨ f = .unmappedAccess a := by
  unfold wordBase at h
  grind

/-- Where it does not fault, both bytes are backed. -/
theorem wordBase_ok {c : Word} (h : s.wordBase a = .ok c) :
    s.dmemValid c = true ∧ s.dmemValid (c + 1#16) = true := by
  unfold wordBase at h
  grind

@[simp] theorem sampled_wordBase : s.sampled.wordBase a = s.wordBase a := rfl

/-- What a word access touches depends on the parameters alone. -/
theorem wordBase_congr (h : t.cfg = s.cfg) : t.wordBase a = s.wordBase a := by
  have hv : ∀ b, t.dmemValid b = s.dmemValid b := fun b => by rw [dmemValid, dmemValid, h]
  unfold wordBase
  simp only [hv, h]

/-! ### Reads and writes of data memory (R52, R53) -/

theorem readByte_ok (h : s.readByte a = .ok b) : s.dmemValid a = true ∧ b = s.byteAt a := by
  unfold readByte at h
  grind

theorem readByte_error {f : Fault} (h : s.readByte a = .error f) : f = .unmappedAccess a := by
  unfold readByte at h
  grind

theorem readByte_valid (h : s.dmemValid a = true) : s.readByte a = .ok (s.byteAt a) := by
  simp [readByte, h]

theorem readWord_ok (h : s.readWord a = .ok v) :
    ∃ c, s.wordBase a = .ok c ∧ v = joinBytes s.cfg.byteOrder (s.byteAt c) (s.byteAt (c + 1#16)) := by
  unfold readWord at h
  split at h
  · cases h
  · next c hc => exact ⟨c, hc, (Except.ok.inj h).symm⟩

theorem readWord_error {f : Fault} (h : s.readWord a = .error f) : s.wordBase a = .error f := by
  unfold readWord at h
  split at h
  · next hc => exact hc.trans (by simpa using h)
  · cases h

theorem readWord_of_base {c : Word} (h : s.wordBase a = .ok c) :
    s.readWord a = .ok (joinBytes s.cfg.byteOrder (s.byteAt c) (s.byteAt (c + 1#16))) := by
  simp [readWord, h]

theorem readWord_of_error {f : Fault} (h : s.wordBase a = .error f) : s.readWord a = .error f := by
  simp [readWord, h]

theorem writeByte_ok (h : s.writeByte a b = .ok t) : s.dmemValid a = true ∧ t = s.putByte a b := by
  unfold writeByte at h
  grind

theorem writeByte_error {f : Fault} (h : s.writeByte a b = .error f) : f = .unmappedAccess a := by
  unfold writeByte at h
  grind

theorem writeByte_valid (h : s.dmemValid a = true) : s.writeByte a b = .ok (s.putByte a b) := by
  simp [writeByte, h]

theorem writeWord_ok (h : s.writeWord a v = .ok t) : ∃ c, s.wordBase a = .ok c ∧ t = s.putWord c v := by
  unfold writeWord at h
  split at h
  · cases h
  · next c hc => exact ⟨c, hc, (Except.ok.inj h).symm⟩

theorem writeWord_error {f : Fault} (h : s.writeWord a v = .error f) : s.wordBase a = .error f := by
  unfold writeWord at h
  split at h
  · next hc => exact hc.trans (by simpa using h)
  · cases h

theorem writeWord_of_base {c : Word} (h : s.wordBase a = .ok c) : s.writeWord a v = .ok (s.putWord c v) := by
  simp [writeWord, h]

theorem writeWord_of_error {f : Fault} (h : s.wordBase a = .error f) : s.writeWord a v = .error f := by
  simp [writeWord, h]

/-! ### Instructions with and without a prefix (R124) -/

theorem unprefixed_none {r : Result} (h : s.pfx = none) : s.unprefixed r = r := by
  simp [unprefixed, h]

theorem unprefixed_some {r : Result} {p : BitVec 11} (h : s.pfx = some p) :
    s.unprefixed r = .fault (.prefixMisuse s.word) := by
  simp [unprefixed, h]

theorem unprefixed_next {r : Result} (h : s.unprefixed r = .next t) : s.pfx = none ∧ r = .next t := by
  unfold unprefixed at h
  split at h
  · cases h
  · exact ⟨‹_›, h⟩

/-! ### Loads and stores (R58, R59) -/

theorem finish_eq : s.finish rd v = .next { s with regs := s.regs.set rd v, pc := s.nextPc, pfx := none } := rfl

theorem loadWord_of_base {c : Word} (h : s.wordBase a = .ok c) :
    s.loadWord rd a = .next { s with
      regs := s.regs.set rd (joinBytes s.cfg.byteOrder (s.byteAt c) (s.byteAt (c + 1#16)))
      pc := s.nextPc, pfx := none } := by
  simp only [loadWord, readWord_of_base h, finish_eq]

theorem storeWord_of_base {c : Word} (h : s.wordBase a = .ok c) :
    s.storeWord rd a = .next (s.putWord c (s.x rd)).retire := by
  simp only [storeWord, writeWord_of_base h]

theorem loadWord_next (h : s.loadWord rd a = .next t) :
    ∃ c, s.wordBase a = .ok c ∧
      t = (s.setX rd (joinBytes s.cfg.byteOrder (s.byteAt c) (s.byteAt (c + 1#16)))).retire := by
  unfold loadWord at h
  split at h
  · cases h
  · next v hv =>
    obtain ⟨c, hc, rfl⟩ := readWord_ok hv
    exact ⟨c, hc, by simpa [finish] using h.symm⟩

theorem loadZeroByte_next (h : s.loadZeroByte rd a = .next t) :
    s.dmemValid a = true ∧ t = (s.setX rd ((s.byteAt a).zeroExtend 16)).retire := by
  unfold loadZeroByte at h
  split at h
  · cases h
  · next v hv =>
    obtain ⟨ha, rfl⟩ := readByte_ok hv
    exact ⟨ha, by simpa [finish] using h.symm⟩

theorem loadSignByte_next (h : s.loadSignByte rd a = .next t) :
    s.dmemValid a = true ∧ t = (s.setX rd ((s.byteAt a).signExtend 16)).retire := by
  unfold loadSignByte at h
  split at h
  · cases h
  · next v hv =>
    obtain ⟨ha, rfl⟩ := readByte_ok hv
    exact ⟨ha, by simpa [finish] using h.symm⟩

theorem storeWord_next (h : s.storeWord rd a = .next t) :
    ∃ c, s.wordBase a = .ok c ∧ t = (s.putWord c (s.x rd)).retire := by
  unfold storeWord at h
  split at h
  · cases h
  · next u hu =>
    obtain ⟨c, hc, rfl⟩ := writeWord_ok hu
    exact ⟨c, hc, by simpa using h.symm⟩

theorem storeByte_next (h : s.storeByte rd a = .next t) :
    s.dmemValid a = true ∧ t = (s.putByte a ((s.x rd).extractLsb' 0 8)).retire := by
  unfold storeByte at h
  split at h
  · cases h
  · next u hu =>
    obtain ⟨ha, rfl⟩ := writeByte_ok hu
    exact ⟨ha, by simpa using h.symm⟩

/-! ### The stack (R70, R244 to R246) -/

theorem push_ok (h : s.push v = .ok t) :
    ∃ c, s.wordBase (s.sp - 2#16) = .ok c ∧ t = { s.putWord c v with sp := s.sp - 2#16 } := by
  unfold push at h
  split at h
  · cases h
  · next u hu =>
    obtain ⟨c, hc, rfl⟩ := writeWord_ok hu
    exact ⟨c, hc, (Except.ok.inj h).symm⟩

theorem push_error {f : Fault} (h : s.push v = .error f) : s.wordBase (s.sp - 2#16) = .error f := by
  unfold push at h
  split at h
  · next hu => exact writeWord_error (hu.trans (by simpa using h))
  · cases h

theorem push_of_base {c : Word} (h : s.wordBase (s.sp - 2#16) = .ok c) :
    s.push v = .ok { s.putWord c v with sp := s.sp - 2#16 } := by
  simp only [push, writeWord_of_base h]

theorem push_of_error {f : Fault} (h : s.wordBase (s.sp - 2#16) = .error f) : s.push v = .error f := by
  simp only [push, writeWord_of_error h]

theorem pop_ok (h : s.pop = .ok (v, t)) : s.readWord s.sp = .ok v ∧ t = { s with sp := s.sp + 2#16 } := by
  unfold pop at h
  split at h
  · cases h
  · next u hu =>
    have h := Except.ok.inj h
    rw [Prod.mk.injEq] at h
    exact ⟨hu.trans (by rw [h.1]), h.2.symm⟩

theorem pop_error {f : Fault} (h : s.pop = .error f) : s.wordBase s.sp = .error f := by
  unfold pop at h
  split at h
  · next hu => exact readWord_error (hu.trans (by simpa using h))
  · cases h

theorem callTo_next (h : s.callTo a = .next t) :
    ∃ c, s.wordBase (s.sp - 2#16) = .ok c ∧
      t = State.jumpTo { s.putWord c s.nextPc with sp := s.sp - 2#16 } a := by
  unfold callTo at h
  split at h
  · cases h
  · next u hu =>
    obtain ⟨c, hc, rfl⟩ := push_ok hu
    exact ⟨c, hc, by simpa using h.symm⟩

theorem returnTo_next (h : s.returnTo = .next t) :
    ∃ ra, s.readWord s.sp = .ok ra ∧ t = State.jumpTo { s with sp := s.sp + 2#16 } ra := by
  unfold returnTo at h
  split at h
  · cases h
  · next ra u hu =>
    obtain ⟨hr, rfl⟩ := pop_ok hu
    exact ⟨ra, hr, by simpa using h.symm⟩

theorem callTo_of_base {c : Word} (h : s.wordBase (s.sp - 2#16) = .ok c) :
    s.callTo a = .next (State.jumpTo { s.putWord c s.nextPc with sp := s.sp - 2#16 } a) := by
  simp only [callTo, push_of_base h]

theorem returnTo_of_base {c : Word} (h : s.wordBase s.sp = .ok c) :
    s.returnTo = .next { s with
      sp := s.sp + 2#16, pfx := none
      pc := joinBytes s.cfg.byteOrder (s.byteAt c) (s.byteAt (c + 1#16)) } := by
  simp only [returnTo, pop, readWord_of_base h, jumpTo]

/-! ### Interrupts (R279, R280) -/

theorem enterInterrupt_of_base {c d : Word} (hc : s.wordBase (s.sp - 2#16) = .ok c)
    (hd : s.wordBase (s.sp - 2#16 - 2#16) = .ok d) :
    s.enterInterrupt a = .next { (s.putWord c s.pc).putWord d (flagImage s.sr) with
      sp := s.sp - 2#16 - 2#16, sr := { s.sr with i := false }, pc := a } := by
  have hd' : wordBase { s.putWord c s.pc with sp := s.sp - 2#16 } (s.sp - 2#16 - 2#16) = .ok d := hd
  rw [enterInterrupt, push_of_base hc]
  dsimp only
  rw [push_of_base hd']
  rfl

theorem enterInterrupt_of_error {f : Fault} (h : s.wordBase (s.sp - 2#16) = .error f) :
    s.enterInterrupt a = .fault f := by
  simp only [enterInterrupt, push_of_error h]

/-- Where the first push is possible and the second is not, the entry faults as the second. -/
theorem enterInterrupt_of_second_error {c : Word} {f : Fault} (hc : s.wordBase (s.sp - 2#16) = .ok c)
    (hd : s.wordBase (s.sp - 2#16 - 2#16) = .error f) : s.enterInterrupt a = .fault f := by
  have hd' : wordBase { s.putWord c s.pc with sp := s.sp - 2#16 } (s.sp - 2#16 - 2#16) = .error f := hd
  rw [enterInterrupt, push_of_base hc]
  dsimp only
  rw [push_of_error hd']

theorem leaveInterrupt_of_base {c d : Word} (hc : s.wordBase s.sp = .ok c) (hd : s.wordBase (s.sp + 2#16) = .ok d) :
    s.leaveInterrupt = .next { s with
      sp := s.sp + 2#16 + 2#16, pfx := none
      sr := flagsOfImage (joinBytes s.cfg.byteOrder (s.byteAt c) (s.byteAt (c + 1#16)))
      pc := joinBytes s.cfg.byteOrder (s.byteAt d) (s.byteAt (d + 1#16)) } := by
  have hd' : wordBase { s with sp := s.sp + 2#16 } (s.sp + 2#16) = .ok d := hd
  simp only [leaveInterrupt, pop, readWord_of_base hc, readWord_of_base hd', jumpTo]
  rfl

theorem enterInterrupt_next (h : s.enterInterrupt a = .next t) :
    ∃ c d, s.wordBase (s.sp - 2#16) = .ok c ∧ s.wordBase (s.sp - 2#16 - 2#16) = .ok d ∧
      t = { (s.putWord c s.pc).putWord d (flagImage s.sr) with
            sp := s.sp - 2#16 - 2#16, sr := { s.sr with i := false }, pc := a } := by
  unfold enterInterrupt at h
  split at h
  · cases h
  · next u hu =>
    obtain ⟨c, hc, rfl⟩ := push_ok hu
    split at h
    · cases h
    · next w hw =>
      obtain ⟨d, hd, rfl⟩ := push_ok hw
      exact ⟨c, d, hc, hd, (Host.Outcome.next.inj h).symm⟩

theorem leaveInterrupt_next (h : s.leaveInterrupt = .next t) :
    ∃ img ra, s.readWord s.sp = .ok img ∧ s.readWord (s.sp + 2#16) = .ok ra ∧
      t = State.jumpTo { s with sp := s.sp + 2#16 + 2#16, sr := flagsOfImage img } ra := by
  unfold leaveInterrupt at h
  split at h
  · cases h
  · next img u hu =>
    obtain ⟨hi, rfl⟩ := pop_ok hu
    split at h
    · cases h
    · next ra w hw =>
      obtain ⟨hr, rfl⟩ := pop_ok hw
      exact ⟨img, ra, hi, hr, by simpa using h.symm⟩

/-- The flags come back from their image (R279, R280). -/
@[simp] theorem flagsOfImage_flagImage (f : SR) : flagsOfImage (flagImage f) = f := by
  obtain ⟨i, t, c, z⟩ := f
  cases i <;> cases t <;> cases c <;> cases z <;> decide

/-- What acceptance can do (R278, R279). -/
theorem takeInterrupt_next (h : s.takeInterrupt = .next t) :
    ∃ vector, s.cfg.irqModel = .stack vector ∧ s.enterInterrupt vector = .next t := by
  unfold takeInterrupt at h
  split at h
  · cases h
  · next vector hv => exact ⟨vector, hv, h⟩

end Sys2Proof.Machine.State
end

