-- ==== Sys2Proof/Laws/PerInstr.lean ====
section
/-! SUPPORT. Families of statements made per instruction, one lemma for each constructor of `Instr`. -/

namespace Sys2Proof.Laws.Pattern

/-- The encoder puts an instruction into its own row of the opcode table: under the row's mask the word is the row's match,
whatever the operands are (R81, R90 to R95). -/
def Statement (i : Instr) : Prop := encode i &&& i.mask = i.pattern

theorem lea_mr (rs : Reg) (k : BitVec 5) (rd : Reg) : Statement (.lea_mr rs k rd) := formI2_mask _ _ _ _
theorem movw_mr (rs : Reg) (k : BitVec 5) (rd : Reg) : Statement (.movw_mr rs k rd) := formI2_mask _ _ _ _
theorem movzb_mr (rs : Reg) (k : BitVec 5) (rd : Reg) : Statement (.movzb_mr rs k rd) := formI2_mask _ _ _ _
theorem movsb_mr (rs : Reg) (k : BitVec 5) (rd : Reg) : Statement (.movsb_mr rs k rd) := formI2_mask _ _ _ _
theorem movw_rm (rd : Reg) (rs : Reg) (k : BitVec 5) : Statement (.movw_rm rd rs k) := formI2_mask _ _ _ _
theorem movb_rm (rd : Reg) (rs : Reg) (k : BitVec 5) : Statement (.movb_rm rd rs k) := formI2_mask _ _ _ _
theorem reserved_I2_11010 : Statement .reserved_I2_11010 := formI2_mask _ _ _ _
theorem and_kr (rs : Reg) (k : BitVec 5) (rd : Reg) : Statement (.and_kr rs k rd) := formI2_mask _ _ _ _
theorem cmp_rkc (cc : Cond) (rs : Reg) (k : BitVec 5) : Statement (.cmp_rkc cc rs k) := formI2_mask _ _ _ _
theorem cmpc_rkc (cc : Cond) (rs : Reg) (k : BitVec 5) : Statement (.cmpc_rkc cc rs k) := formI2_mask _ _ _ _
theorem call (k : BitVec 11) : Statement (.call k) := formP_mask _ _
theorem pfix_k (k : BitVec 11) : Statement (.pfix_k k) := formP_mask _ _
theorem mov_kr (k : BitVec 8) (rd : Reg) : Statement (.mov_kr k rd) := formI1_mask _ _ _
theorem add_kr (rd : Reg) (k : BitVec 8) : Statement (.add_kr rd k) := formI1_mask _ _ _
theorem sub_kr (rd : Reg) (k : BitVec 8) : Statement (.sub_kr rd k) := formI1_mask _ _ _
theorem movw_ar (k : BitVec 8) (rd : Reg) : Statement (.movw_ar k rd) := formI1_mask _ _ _
theorem movsb_ar (k : BitVec 8) (rd : Reg) : Statement (.movsb_ar k rd) := formI1_mask _ _ _
theorem movw_ra (rd : Reg) (k : BitVec 8) : Statement (.movw_ra rd k) := formI1_mask _ _ _
theorem movb_ra (rd : Reg) (k : BitVec 8) : Statement (.movb_ra rd k) := formI1_mask _ _ _
theorem lea_qr (k : BitVec 8) (rd : Reg) : Statement (.lea_qr k rd) := formI1_mask _ _ _
theorem movw_qr (k : BitVec 8) (rd : Reg) : Statement (.movw_qr k rd) := formI1_mask _ _ _
theorem movsb_qr (k : BitVec 8) (rd : Reg) : Statement (.movsb_qr k rd) := formI1_mask _ _ _
theorem movw_rq (rd : Reg) (k : BitVec 8) : Statement (.movw_rq rd k) := formI1_mask _ _ _
theorem movb_rq (rd : Reg) (k : BitVec 8) : Statement (.movb_rq rd k) := formI1_mask _ _ _
theorem cmp_rrc (cc : Cond) (rs : Reg) (rn : Reg) : Statement (.cmp_rrc cc rs rn) := formR3_mask _ _ _ _
theorem cmpc_rrc (cc : Cond) (rs : Reg) (rn : Reg) : Statement (.cmpc_rrc cc rs rn) := formR3_mask _ _ _ _
theorem sub_rrr (rs : Reg) (rn : Reg) (rd : Reg) : Statement (.sub_rrr rs rn rd) := formR3_mask _ _ _ _
theorem subc_rrr (rs : Reg) (rn : Reg) (rd : Reg) : Statement (.subc_rrr rs rn rd) := formR3_mask _ _ _ _
theorem or_rrr (rs : Reg) (rn : Reg) (rd : Reg) : Statement (.or_rrr rs rn rd) := formR3_mask _ _ _ _
theorem and_rrr (rs : Reg) (rn : Reg) (rd : Reg) : Statement (.and_rrr rs rn rd) := formR3_mask _ _ _ _
theorem xor_rrr (rs : Reg) (rn : Reg) (rd : Reg) : Statement (.xor_rrr rs rn rd) := formR3_mask _ _ _ _
theorem adc_rrr (rs : Reg) (rn : Reg) (rd : Reg) : Statement (.adc_rrr rs rn rd) := formR3_mask _ _ _ _
theorem add_rrr (rs : Reg) (rn : Reg) (rd : Reg) : Statement (.add_rrr rs rn rd) := formR3_mask _ _ _ _
theorem movw_nr (rs : Reg) (rn : Reg) (rd : Reg) : Statement (.movw_nr rs rn rd) := formR3_mask _ _ _ _
theorem movzb_nr (rs : Reg) (rn : Reg) (rd : Reg) : Statement (.movzb_nr rs rn rd) := formR3_mask _ _ _ _
theorem movsb_nr (rs : Reg) (rn : Reg) (rd : Reg) : Statement (.movsb_nr rs rn rd) := formR3_mask _ _ _ _
theorem movw_rn (rd : Reg) (rs : Reg) (rn : Reg) : Statement (.movw_rn rd rs rn) := formR3_mask _ _ _ _
theorem movb_rn (rd : Reg) (rs : Reg) (rn : Reg) : Statement (.movb_rn rd rs rn) := formR3_mask _ _ _ _
theorem reserved_R3_10110 : Statement .reserved_R3_10110 := formR3_mask _ _ _ _
theorem reserved_R3_10111 : Statement .reserved_R3_10111 := formR3_mask _ _ _ _
theorem sel_rrr (rs : Reg) (rn : Reg) (rd : Reg) : Statement (.sel_rrr rs rn rd) := formR3_mask _ _ _ _
theorem reserved_R3_11001 : Statement .reserved_R3_11001 := formR3_mask _ _ _ _
theorem reserved_R3_11010 : Statement .reserved_R3_11010 := formR3_mask _ _ _ _
theorem reserved_R3_11011 : Statement .reserved_R3_11011 := formR3_mask _ _ _ _
theorem br_nt (k : BitVec 9) : Statement (.br_nt k) := formJ_mask _ _
theorem br_t (k : BitVec 9) : Statement (.br_t k) := formJ_mask _ _
theorem jmp_k (k : BitVec 9) : Statement (.jmp_k k) := formJ_mask _ _
theorem add_kq (k : BitVec 9) : Statement (.add_kq k) := formJ_mask _ _
theorem mov_rr (rs : Reg) (rd : Reg) : Statement (.mov_rr rs rd) := formR2_mask _ _ _
theorem mov_rq (rs : Reg) : Statement (.mov_rq rs) := formR2_mask _ _ _
theorem zext_rr (rs : Reg) (rd : Reg) : Statement (.zext_rr rs rd) := formR2_mask _ _ _
theorem sext_rr (rs : Reg) (rd : Reg) : Statement (.sext_rr rs rd) := formR2_mask _ _ _
theorem bswap_rr (rs : Reg) (rd : Reg) : Statement (.bswap_rr rs rd) := formR2_mask _ _ _
theorem sextw_rr (rs : Reg) (rd : Reg) : Statement (.sextw_rr rs rd) := formR2_mask _ _ _
theorem reserved_R2_00110 : Statement .reserved_R2_00110 := formR2_mask _ _ _
theorem movw_pr (rs : Reg) (rd : Reg) : Statement (.movw_pr rs rd) := formR2_mask _ _ _
theorem lsr_rr (rs : Reg) (rd : Reg) : Statement (.lsr_rr rs rd) := formR2_mask _ _ _
theorem lsrc_rr (rs : Reg) (rd : Reg) : Statement (.lsrc_rr rs rd) := formR2_mask _ _ _
theorem asr_rr (rs : Reg) (rd : Reg) : Statement (.asr_rr rs rd) := formR2_mask _ _ _
theorem reserved_R2_01011 : Statement .reserved_R2_01011 := formR2_mask _ _ _
theorem reserved_R2_01100 : Statement .reserved_R2_01100 := formR2_mask _ _ _
theorem neg_rr (rs : Reg) (rd : Reg) : Statement (.neg_rr rs rd) := formR2_mask _ _ _
theorem not_rr (rs : Reg) (rd : Reg) : Statement (.not_rr rs rd) := formR2_mask _ _ _
theorem reserved_R2_01111 : Statement .reserved_R2_01111 := formR2_mask _ _ _
theorem jmp_r (rd : Reg) : Statement (.jmp_r rd) := formR2_mask _ _ _
theorem call_r (rd : Reg) : Statement (.call_r rd) := formR2_mask _ _ _
theorem set_1r (rd : Reg) : Statement (.set_1r rd) := formR2_mask _ _ _
theorem set_rr (rs : Reg) (rd : Reg) : Statement (.set_rr rs rd) := formR2_mask _ _ _
theorem reserved_R2_10100 : Statement .reserved_R2_10100 := formR2_mask _ _ _
theorem reserved_R2_10101 : Statement .reserved_R2_10101 := formR2_mask _ _ _
theorem mov_sr (rd : Reg) : Statement (.mov_sr rd) := formR2_mask _ _ _
theorem mov_rs (rd : Reg) : Statement (.mov_rs rd) := formR2_mask _ _ _
theorem ret : Statement .ret := formR2_mask _ _ _
theorem reti : Statement .reti := formR2_mask _ _ _
theorem dint : Statement .dint := formR2_mask _ _ _
theorem eint : Statement .eint := formR2_mask _ _ _
theorem halt : Statement .halt := formR2_mask _ _ _
theorem reserved_R2_11101 : Statement .reserved_R2_11101 := formR2_mask _ _ _
theorem reserved_R2_11110 : Statement .reserved_R2_11110 := formR2_mask _ _ _
theorem reserved_R2_11111 : Statement .reserved_R2_11111 := formR2_mask _ _ _

end Sys2Proof.Laws.Pattern
end

