-- ==== Sys2Proof/Laws/Safety.lean ====
section
/-! SUPPORT. The terms of Safety.lean in terms of the operations: the acceptance test, an even address, the value of a
word, and what a step can do. -/

namespace Sys2Proof.Machine

/-- The acceptance test in words (R277). -/
theorem State.accepts_iff (s : State) :
    s.accepts = true ↔ s.irq.headD false = true ∧ s.sr.i = true ∧ s.pfx = none ∧ s.halted = false := by
  simp only [State.accepts, State.irqNow, Bool.and_eq_true, Option.isNone_iff_eq_none, Bool.not_eq_true']
  constructor
  · rintro ⟨⟨⟨h1, h2⟩, h3⟩, h4⟩
    exact ⟨h1, h2, h3, h4⟩
  · rintro ⟨h1, h2, h3, h4⟩
    exact ⟨⟨⟨h1, h2⟩, h3⟩, h4⟩

theorem bit0_eq (a : Word) : a[0] = decide (a.toNat % 2 = 1) := by
  rw [← BitVec.getLsbD_eq_getElem, BitVec.getLsbD, Nat.testBit_zero]

/-- Where a word access has a meaning, it touches its own address and the next (R52). -/
theorem State.WordAccess.base {s : State} {a : Word} (h : s.WordAccess a) : s.wordBase a = .ok a := by
  obtain ⟨he, h0, h1⟩ := h
  refine State.wordBase_aligned ?_ h0 h1
  rw [bit0_eq, he]
  rfl

/-- An odd address less one is the address with bit 0 cleared. -/
theorem clear_bit0 (a : Word) (h : a.toNat % 2 = 1) : a &&& 0xFFFE#16 = a - 1#16 := by
  have e : a = (a - 1#16) ||| 1#16 := by
    have hz : (a - 1#16) &&& 1#16 = 0#16 := by
      refine BitVec.eq_of_toNat_eq ?_
      have := a.isLt
      rw [BitVec.toNat_and, BitVec.toNat_ofNat, Nat.and_one_is_mod, BitVec.toNat_sub]
      simp
      omega
    rw [← BitVec.add_eq_or_of_and_eq_zero _ _ hz, BitVec.sub_add_cancel]
  have hz : (a - 1#16).toNat % 2 = 0 := by
    have := a.isLt
    rw [BitVec.toNat_sub]
    simp
    omega
  generalize a - 1#16 = b at e hz
  have h0 : b[0] = false := by simp [bit0_eq, hz]
  rw [e]
  refine BitVec.eq_of_getLsbD_eq fun i hi => ?_
  rw [BitVec.getLsbD_and, BitVec.getLsbD_or]
  interval_cases i <;> simp [h0]

/-- A word access touches the bytes that `FirstByte` names, when memory backs them (R52). -/
theorem State.FirstByte.base {s : State} {a b : Word} (h : s.FirstByte a b) (hb : s.Backed b) :
    s.wordBase a = .ok b := by
  obtain ⟨h0, h1⟩ := hb
  rcases h with ⟨he, rfl⟩ | ⟨ho, hc, rfl⟩ | ⟨ho, hc, rfl⟩
  · exact State.WordAccess.base ⟨he, h0, h1⟩
  · simp only [State.wordBase, bit0_eq, ho, hc, clear_bit0 a ho, h0, h1]
    rfl
  · simp only [State.wordBase, bit0_eq, ho, hc, h0, h1]
    rfl

/-- Where memory does not back them, it faults with the accessed address (R52). -/
theorem State.FirstByte.unbacked {s : State} {a b : Word} (h : s.FirstByte a b) (hb : ¬ s.Backed b) :
    s.wordBase a = .error (.unmappedAccess a) := by
  have hf : (s.dmemValid b && s.dmemValid (b + 1#16)) = false := by
    rw [Bool.eq_false_iff, Ne, Bool.and_eq_true]
    exact hb
  rcases h with ⟨he, rfl⟩ | ⟨ho, hc, rfl⟩ | ⟨ho, hc, rfl⟩
  · simp [State.wordBase, bit0_eq, he, hf]
  · simp only [State.wordBase, bit0_eq, ho, hc, clear_bit0 a ho, hf]
    rfl
  · simp only [State.wordBase, bit0_eq, ho, hc, hf]
    rfl

/-- What touches a byte pair touches the pair that `FirstByte` names. -/
theorem State.FirstByte.eq_of_base {s : State} {a b c : Word} (h : s.FirstByte a b) (hc : s.wordBase a = .ok c) :
    b = c := by
  by_cases hb : s.Backed b
  · exact Except.ok.inj ((h.base hb).symm.trans hc)
  · exact absurd ((h.unbacked hb).symm.trans hc) (by simp)

/-- The four word loads are one operation at their effective address (R200, R201). -/
theorem State.LoadsWord.exec_eq {s : State} {i : Instr} {rd : Reg} {ea : Word} (h : s.LoadsWord i rd ea) :
    exec i s = s.loadWord rd ea := by
  rcases h with ⟨rs, k, rfl, rfl⟩ | ⟨k, rfl, rfl⟩ | ⟨k, rfl, rfl⟩ | ⟨rs, rn, rfl, rfl, hp⟩
  · rfl
  · rfl
  · rfl
  · exact State.unprefixed_none hp

/-- The four word stores are one operation at their effective address (R200, R204). -/
theorem State.StoresWord.exec_eq {s : State} {i : Instr} {rd : Reg} {ea : Word} (h : s.StoresWord i rd ea) :
    exec i s = s.storeWord rd ea := by
  rcases h with ⟨rs, k, rfl, rfl⟩ | ⟨k, rfl, rfl⟩ | ⟨k, rfl, rfl⟩ | ⟨rs, rn, rfl, rfl, hp⟩
  · rfl
  · rfl
  · rfl
  · exact State.unprefixed_none hp

/-- An accepted request under IRQ_MODEL = stack is interrupt entry (R277, R279). -/
theorem State.TakesRequest.step_eq {s : State} {vector : Word} (h : s.TakesRequest vector) :
    Sys2Proof.Machine.step s = s.sampled.enterInterrupt vector := by
  obtain ⟨hh, hi, hI, hp, hm⟩ := h
  have ha : s.accepts = true := (State.accepts_iff s).2 ⟨hi, hI, hp, hh⟩
  simp [Sys2Proof.Machine.step, hh, ha, State.takeInterrupt, hm]

/-- The number that two bytes make (R51). -/
theorem joinBytes_toNat (o : ByteOrder) (b0 b1 : Byte) : (joinBytes o b0 b1).toNat = wordValue o b0 b1 := by
  have h0 := b0.isLt
  have h1 := b1.isLt
  cases o <;> simp only [joinBytes, wordValue, BitVec.toNat_append] <;>
    rw [← Nat.shiftLeft_add_eq_or_of_lt (BitVec.isLt _), Nat.shiftLeft_eq] <;> omega

/-- The two bytes of a word make its number (R51). -/
theorem wordValue_first_second (o : ByteOrder) (v : Word) : wordValue o (firstByte o v) (secondByte o v) = v.toNat := by
  rw [← joinBytes_toNat, joinBytes_first_second]

/-- The carry into a subtraction and the borrow it stands for (R135, D9). -/
theorem State.subCarryIn_add_borrow (s : State) : s.subCarryIn.toNat + s.borrow = 1 := by
  unfold State.subCarryIn State.borrow
  cases s.cfg.subCIsNotBorrow <;> cases s.sr.c <;> rfl

/-! ### The launch state (R303) -/

theorem State.foldl_preset_mem (presets : List Preset) (s : State) :
    (presets.foldl State.preset s).mem = s.mem ∧ (presets.foldl State.preset s).pmem = s.pmem ∧
      (presets.foldl State.preset s).cfg = s.cfg := by
  induction presets generalizing s with
  | nil => exact ⟨rfl, rfl, rfl⟩
  | cons p ps ih => simpa using ih (s.preset p)

theorem State.putBytes_mem (bytes : List (Word × Byte)) (s : State) (h : Memory.wf s.mem) :
    Memory.wf (s.putBytes bytes).mem ∧ (s.putBytes bytes).pmem = s.pmem ∧ (s.putBytes bytes).cfg = s.cfg := by
  induction bytes generalizing s with
  | nil => exact ⟨h, rfl, rfl⟩
  | cons p ps ih => exact ih _ (State.putByte_wf s p.1 p.2 h)

/-- A launch state has the given program and parameters, and its memories are in their canonical form. -/
theorem State.launch_spec (c : Config) {image : ProgMem} (bytes : List (Word × Byte)) (presets : List Preset)
    (h : ProgMem.wf image) :
    (State.launch c image bytes presets).Canonical ∧ (State.launch c image bytes presets).pmem = image ∧
      (State.launch c image bytes presets).cfg = c := by
  obtain ⟨hm, hp, hc⟩ := State.putBytes_mem bytes { State.resetWith c with pmem := image }
    ⟨by simp [State.resetWith], by simp [State.resetWith]⟩
  obtain ⟨em, ep, ec⟩ :=
    State.foldl_preset_mem presets (State.putBytes { State.resetWith c with pmem := image } bytes)
  refine ⟨⟨?_, ?_⟩, ep.trans hp, ec.trans hc⟩
  · exact em.symm ▸ hm
  · exact (ep.trans hp).symm ▸ h

/-- Everything a step that answers a next state can have done (R55, R277, R281). -/
theorem step_next {s t : State} (h : Sys2Proof.Machine.step s = .next t) :
    s.halted = false ∧
      ((s.accepts = true ∧ s.sampled.takeInterrupt = .next t) ∨
        (s.accepts = false ∧ ∃ w i, s.fetch = .word w ∧ decode w = some i ∧ exec i s.sampled = .next t)) := by
  unfold Sys2Proof.Machine.step at h
  split at h
  · cases h
  · next hh =>
    refine ⟨by simpa using hh, ?_⟩
    split at h
    · next ha => exact .inl ⟨ha, h⟩
    · next ha =>
      refine .inr ⟨by simpa using ha, ?_⟩
      split at h
      · cases h
      · cases h
      · next w hw =>
        split at h
        · cases h
        · next i hi => exact ⟨w, i, hw, hi, h⟩

end Sys2Proof.Machine
end

