-- ==== Sys2Proof/Tests/Slice0.lean ====
section
/-! SUPPORT. The model's own tests: what WellFormed refuses, one word of every row written out from the encoding column of
spec/opcode_table.json, one-step vectors of spec/95_test_vectors.md, and for every statement with hypotheses a state and
operands that meet them. -/

namespace Sys2Proof.Tests

open Sys2Proof.Machine

/-! ### WellFormed -/

theorem test_wellFormed_refuses_reserved :
    Instr.reserved_I2_11010.wellFormed = false ∧ Instr.reserved_R3_10110.wellFormed = false ∧
      Instr.reserved_R2_11111.wellFormed = false := by decide

theorem test_wellFormed_refuses_not_implemented :
    (Instr.set_rr .r0 .r1).wellFormed = false ∧ (Instr.mov_sr .r0).wellFormed = false ∧
      (Instr.mov_rs .r0).wellFormed = false := by decide

theorem test_wellFormed_accepts_implemented :
    (Instr.add_kr .r0 0xFF).wellFormed = true ∧ Instr.reti.wellFormed = true ∧
      (Instr.pfix_k 0).wellFormed = true := by decide

/-! ### Decoding: one word of every row (R90 to R95), its ignored bits written 1 (R99) -/

theorem test_decode_lea_mr : decode 0b1010010110011101#16 = some (.lea_mr .r3 0b10110 .r5) := by decide
theorem test_decode_movw_mr : decode 0b1010110110011101#16 = some (.movw_mr .r3 0b10110 .r5) := by decide
theorem test_decode_movzb_mr : decode 0b1011010110011101#16 = some (.movzb_mr .r3 0b10110 .r5) := by decide
theorem test_decode_movsb_mr : decode 0b1011110110011101#16 = some (.movsb_mr .r3 0b10110 .r5) := by decide
theorem test_decode_movw_rm : decode 0b1100010110011101#16 = some (.movw_rm .r5 .r3 0b10110) := by decide
theorem test_decode_movb_rm : decode 0b1100110110011101#16 = some (.movb_rm .r5 .r3 0b10110) := by decide
theorem test_decode_reserved_I2_11010 : decode 0b1101011111111111#16 = some .reserved_I2_11010 := by decide
theorem test_decode_and_kr : decode 0b1101110110011101#16 = some (.and_kr .r3 0b10110 .r5) := by decide
theorem test_decode_cmp_rkc : decode 0b1110010110011101#16 = some (.cmp_rkc .lt .r3 0b10110) := by decide
theorem test_decode_cmpc_rkc : decode 0b1110110110011101#16 = some (.cmpc_rkc .lt .r3 0b10110) := by decide
theorem test_decode_call : decode 0b1111010110100111#16 = some (.call 0b10110100111) := by decide
theorem test_decode_pfix_k : decode 0b1111110110100111#16 = some (.pfix_k 0b10110100111) := by decide
theorem test_decode_mov_kr : decode 0b0100010110101101#16 = some (.mov_kr 0b10110101 .r5) := by decide
theorem test_decode_add_kr : decode 0b0100110110101101#16 = some (.add_kr .r5 0b10110101) := by decide
theorem test_decode_sub_kr : decode 0b0101010110101101#16 = some (.sub_kr .r5 0b10110101) := by decide
theorem test_decode_movw_ar : decode 0b0101110110101101#16 = some (.movw_ar 0b10110101 .r5) := by decide
theorem test_decode_movsb_ar : decode 0b0110010110101101#16 = some (.movsb_ar 0b10110101 .r5) := by decide
theorem test_decode_movw_ra : decode 0b0110110110101101#16 = some (.movw_ra .r5 0b10110101) := by decide
theorem test_decode_movb_ra : decode 0b0111010110101101#16 = some (.movb_ra .r5 0b10110101) := by decide
theorem test_decode_lea_qr : decode 0b0111110110101101#16 = some (.lea_qr 0b10110101 .r5) := by decide
theorem test_decode_movw_qr : decode 0b1000010110101101#16 = some (.movw_qr 0b10110101 .r5) := by decide
theorem test_decode_movsb_qr : decode 0b1000110110101101#16 = some (.movsb_qr 0b10110101 .r5) := by decide
theorem test_decode_movw_rq : decode 0b1001010110101101#16 = some (.movw_rq .r5 0b10110101) := by decide
theorem test_decode_movb_rq : decode 0b1001110110101101#16 = some (.movb_rq .r5 0b10110101) := by decide
theorem test_decode_cmp_rrc : decode 0b0001000110011101#16 = some (.cmp_rrc .lt .r3 .r6) := by decide
theorem test_decode_cmpc_rrc : decode 0b0001001110011101#16 = some (.cmpc_rrc .lt .r3 .r6) := by decide
theorem test_decode_sub_rrr : decode 0b0001010110011101#16 = some (.sub_rrr .r3 .r6 .r5) := by decide
theorem test_decode_subc_rrr : decode 0b0001011110011101#16 = some (.subc_rrr .r3 .r6 .r5) := by decide
theorem test_decode_or_rrr : decode 0b0001100110011101#16 = some (.or_rrr .r3 .r6 .r5) := by decide
theorem test_decode_and_rrr : decode 0b0001101110011101#16 = some (.and_rrr .r3 .r6 .r5) := by decide
theorem test_decode_xor_rrr : decode 0b0001110110011101#16 = some (.xor_rrr .r3 .r6 .r5) := by decide
theorem test_decode_adc_rrr : decode 0b0001111110011101#16 = some (.adc_rrr .r3 .r6 .r5) := by decide
theorem test_decode_add_rrr : decode 0b0010000110011101#16 = some (.add_rrr .r3 .r6 .r5) := by decide
theorem test_decode_movw_nr : decode 0b0010001110011101#16 = some (.movw_nr .r3 .r6 .r5) := by decide
theorem test_decode_movzb_nr : decode 0b0010010110011101#16 = some (.movzb_nr .r3 .r6 .r5) := by decide
theorem test_decode_movsb_nr : decode 0b0010011110011101#16 = some (.movsb_nr .r3 .r6 .r5) := by decide
theorem test_decode_movw_rn : decode 0b0010100110011101#16 = some (.movw_rn .r5 .r3 .r6) := by decide
theorem test_decode_movb_rn : decode 0b0010101110011101#16 = some (.movb_rn .r5 .r3 .r6) := by decide
theorem test_decode_reserved_R3_10110 : decode 0b0010110111111111#16 = some .reserved_R3_10110 := by decide
theorem test_decode_reserved_R3_10111 : decode 0b0010111111111111#16 = some .reserved_R3_10111 := by decide
theorem test_decode_sel_rrr : decode 0b0011000110011101#16 = some (.sel_rrr .r3 .r6 .r5) := by decide
theorem test_decode_reserved_R3_11001 : decode 0b0011001111111111#16 = some .reserved_R3_11001 := by decide
theorem test_decode_reserved_R3_11010 : decode 0b0011010111111111#16 = some .reserved_R3_11010 := by decide
theorem test_decode_reserved_R3_11011 : decode 0b0011011111111111#16 = some .reserved_R3_11011 := by decide
theorem test_decode_br_nt : decode 0b0011100101101001#16 = some (.br_nt 0b101101001) := by decide
theorem test_decode_br_t : decode 0b0011101101101001#16 = some (.br_t 0b101101001) := by decide
theorem test_decode_jmp_k : decode 0b0011110101101001#16 = some (.jmp_k 0b101101001) := by decide
theorem test_decode_add_kq : decode 0b0011111101101001#16 = some (.add_kq 0b101101001) := by decide
theorem test_decode_mov_rr : decode 0b0000000001011101#16 = some (.mov_rr .r3 .r5) := by decide
theorem test_decode_mov_rq : decode 0b0000000011011111#16 = some (.mov_rq .r3) := by decide
theorem test_decode_zext_rr : decode 0b0000000101011101#16 = some (.zext_rr .r3 .r5) := by decide
theorem test_decode_sext_rr : decode 0b0000000111011101#16 = some (.sext_rr .r3 .r5) := by decide
theorem test_decode_bswap_rr : decode 0b0000001001011101#16 = some (.bswap_rr .r3 .r5) := by decide
theorem test_decode_sextw_rr : decode 0b0000001011011101#16 = some (.sextw_rr .r3 .r5) := by decide
theorem test_decode_reserved_R2_00110 : decode 0b0000001101111111#16 = some .reserved_R2_00110 := by decide
theorem test_decode_movw_pr : decode 0b0000001111011101#16 = some (.movw_pr .r3 .r5) := by decide
theorem test_decode_lsr_rr : decode 0b0000010001011101#16 = some (.lsr_rr .r3 .r5) := by decide
theorem test_decode_lsrc_rr : decode 0b0000010011011101#16 = some (.lsrc_rr .r3 .r5) := by decide
theorem test_decode_asr_rr : decode 0b0000010101011101#16 = some (.asr_rr .r3 .r5) := by decide
theorem test_decode_reserved_R2_01011 : decode 0b0000010111111111#16 = some .reserved_R2_01011 := by decide
theorem test_decode_reserved_R2_01100 : decode 0b0000011001111111#16 = some .reserved_R2_01100 := by decide
theorem test_decode_neg_rr : decode 0b0000011011011101#16 = some (.neg_rr .r3 .r5) := by decide
theorem test_decode_not_rr : decode 0b0000011101011101#16 = some (.not_rr .r3 .r5) := by decide
theorem test_decode_reserved_R2_01111 : decode 0b0000011111111111#16 = some .reserved_R2_01111 := by decide
theorem test_decode_jmp_r : decode 0b0000100001111101#16 = some (.jmp_r .r5) := by decide
theorem test_decode_call_r : decode 0b0000100011111101#16 = some (.call_r .r5) := by decide
theorem test_decode_set_1r : decode 0b0000100101111101#16 = some (.set_1r .r5) := by decide
theorem test_decode_set_rr : decode 0b0000100111011101#16 = some (.set_rr .r3 .r5) := by decide
theorem test_decode_reserved_R2_10100 : decode 0b0000101001111111#16 = some .reserved_R2_10100 := by decide
theorem test_decode_reserved_R2_10101 : decode 0b0000101011111111#16 = some .reserved_R2_10101 := by decide
theorem test_decode_mov_sr : decode 0b0000101101111101#16 = some (.mov_sr .r5) := by decide
theorem test_decode_mov_rs : decode 0b0000101111111101#16 = some (.mov_rs .r5) := by decide
theorem test_decode_ret : decode 0b0000110001111111#16 = some .ret := by decide
theorem test_decode_reti : decode 0b0000110011111111#16 = some .reti := by decide
theorem test_decode_dint : decode 0b0000110101111111#16 = some .dint := by decide
theorem test_decode_eint : decode 0b0000110111111111#16 = some .eint := by decide
theorem test_decode_halt : decode 0b0000111001111111#16 = some .halt := by decide
theorem test_decode_reserved_R2_11101 : decode 0b0000111011111111#16 = some .reserved_R2_11101 := by decide
theorem test_decode_reserved_R2_11110 : decode 0b0000111101111111#16 = some .reserved_R2_11110 := by decide
theorem test_decode_reserved_R2_11111 : decode 0b0000111111111111#16 = some .reserved_R2_11111 := by decide

/-! ### One step (spec/95_test_vectors.md, part 2) -/

/-- Nothing loaded, the registers of most vectors zero; the bytes of V7. -/
def base : State :=
  { State.reset with sp := 0x0400#16, mem := [(0x0010, 0x7F), (0x0011, 0xFE), (0x0100, 0x34), (0x0101, 0x80)] }

/-- `base` with R1, R2 and R3 as given. -/
def with3 (a b c : Word) : State := { base with regs := ⟨0, a, b, c, 0, 0, 0, 0⟩ }

/-- `base` with I, T, C, Z and the registers of `with3`. -/
def withFlags (f : SR) (a b : Word) : State := { with3 a b 0 with sr := f }

/-- The step on the instruction word `w`, as the values that `look` reads from the next state. -/
def run1 {α : Type} (s : State) (w : Nat) (look : State → α) : Option α :=
  match Sys2Proof.Machine.step (s.withFetchWord 16 w) with
  | .next t => some (look t)
  | _ => none

/-- A register after an instruction with C, Z and T. -/
def withCZT (r : Reg) (t : State) : Word × Bool × Bool × Bool := (t.x r, t.sr.c, t.sr.z, t.sr.t)

/-- The fault that the step on the instruction word `w` ends in. -/
def fault1 (s : State) (w : Nat) : Option Fault :=
  match Sys2Proof.Machine.step (s.withFetchWord 16 w) with
  | .fault f => some f
  | _ => none

/-- Flags by I, T, C, Z. -/
def fl (i t c z : Bool) : SR := { i := i, t := t, c := c, z := z }

/-- The same state under BYTE_ORDER = big. -/
def bigEndian (s : State) : State := { s with cfg := { s.cfg with byteOrder := .big } }

/-- The handler of V9 at its `reti`. -/
def inHandler : State :=
  { base with
    cfg := { Config.default with irqModel := .stack 0x0040 }
    sp := 0x03FC
    mem := [(0x03FC, 0x0A), (0x03FD, 0x00), (0x03FE, 0x10), (0x03FF, 0x00)] }

theorem test_pfix : run1 base 0xF891 (fun t => (t.pfx, t.pc)) = some (some 0x091#11, 1#16) := by decide
theorem test_prefix_misuse : fault1 { base with pfx := some 0 } 0x0000 = some (.prefixMisuse 0x0000) := by decide
theorem test_mov_k_prefixed :
    run1 { base with pfx := some 0x091 } 0x40A1 (fun t => (t.x .r1, t.pfx)) = some (0x1234#16, none) := by decide
theorem test_mov_k_sign : run1 base 0x4400 (fun t => t.x .r0) = some 0xFF80#16 := by decide
theorem test_add_k_prefixed :
    run1 { with3 1 0 0 with pfx := some 0x01F } 0x4841 (withCZT .r1) =
      some (0x03E9#16, false, false, false) := by decide
theorem test_add_k_carry : run1 (with3 0xFFF0 0 0) 0x4881 (withCZT .r1) = some (0#16, true, true, true) := by decide
theorem test_sub_k_prefixed :
    run1 { with3 0x7FFF 0 0 with pfx := some 0x400 } 0x5001 (withCZT .r1) =
      some (0xFFFF#16, false, false, false) := by decide
theorem test_sub_k_zero : run1 (with3 1 0 0) 0x5009 (withCZT .r1) = some (0#16, true, true, true) := by decide
theorem test_add_carry :
    run1 (with3 0x8000 0x8000 0) 0x208B (withCZT .r3) = some (0#16, true, true, true) := by decide
theorem test_add_signed_overflow :
    run1 (with3 0x7FFF 1 0) 0x208B (withCZT .r3) = some (0x8000#16, false, false, false) := by decide
theorem test_addc_chains_zero :
    run1 (withFlags (fl false false true false) 0xFFFF 0) 0x1E8B (withCZT .r3) =
      some (0#16, true, false, false) := by decide
theorem test_addc_zero :
    run1 (withFlags (fl false false true true) 0xFFFF 0) 0x1E8B (withCZT .r3) =
      some (0#16, true, true, true) := by decide
theorem test_sub_borrow : run1 (with3 5 7 0) 0x148B (withCZT .r3) = some (0xFFFE#16, false, false, false) := by decide
theorem test_sub_no_borrow : run1 (with3 7 5 0) 0x148B (withCZT .r3) = some (2#16, true, false, false) := by decide
theorem test_subc_borrow :
    run1 (withFlags (fl false false false true) 0 0) 0x168B (withCZT .r3) =
      some (0xFFFF#16, false, false, false) := by decide
theorem test_subc_chains_zero :
    run1 (withFlags (fl false false true false) 5 5) 0x168B (withCZT .r3) =
      some (0#16, true, false, false) := by decide
theorem test_neg_one : run1 (with3 1 0 0) 0x068A (withCZT .r2) = some (0xFFFF#16, false, false, false) := by decide
theorem test_neg_zero : run1 (with3 0 9 0) 0x068A (withCZT .r2) = some (0#16, true, true, true) := by decide
theorem test_lea_wraps :
    run1 (withFlags (fl false true true true) 0xFFF0 0) 0xA7CA (withCZT .r2) =
      some (0x000F#16, true, true, true) := by decide
theorem test_lea_sp :
    run1 { base with sp := 0xFF80 } 0x7FFA (fun t => (t.x .r2, t.sp)) = some (0x007F#16, 0xFF80#16) := by decide
theorem test_add_sp_negative : run1 { base with sp := 0x0200 } 0x3FFC (fun t => t.sp) = some 0x01FC#16 := by decide
theorem test_add_sp_wraps : run1 { base with sp := 0xFFFF } 0x3EFF (fun t => t.sp) = some 0x00FE#16 := by decide
theorem test_zext : run1 (with3 0x12F0 0 0) 0x010A (fun t => t.x .r2) = some 0x00F0#16 := by decide
theorem test_sext : run1 (with3 0x12F0 0 0) 0x018A (fun t => t.x .r2) = some 0xFFF0#16 := by decide
theorem test_sext_positive : run1 (with3 0xFF7F 0 0) 0x018A (fun t => t.x .r2) = some 0x007F#16 := by decide
theorem test_sextw : run1 (with3 0x8000 0 0) 0x028A (fun t => t.x .r2) = some 0xFFFF#16 := by decide
theorem test_sextw_positive : run1 (with3 0x7FFF 1 0) 0x028A (fun t => t.x .r2) = some 0x0000#16 := by decide
theorem test_and_k :
    run1 (with3 0x1234 0 0) 0xDBCA (fun t => (t.x .r2, t.sr.z, t.sr.t)) = some (0x0004#16, false, false) := by decide
theorem test_and_k_zero :
    run1 (with3 0x000F 9 0) 0xDC0A (fun t => (t.x .r2, t.sr.z, t.sr.t)) = some (0#16, true, true) := by decide
theorem test_and :
    run1 (with3 0xF0F0 0x0FF0 0) 0x1A8B (fun t => (t.x .r3, t.sr.z, t.sr.t)) =
      some (0x00F0#16, false, false) := by decide
theorem test_or :
    run1 (with3 0xF0F0 0x0FF0 0) 0x188B (fun t => (t.x .r3, t.sr.z, t.sr.t)) =
      some (0xFFF0#16, false, false) := by decide
theorem test_xor :
    run1 (with3 0xF0F0 0x0FF0 0) 0x1C8B (fun t => (t.x .r3, t.sr.z, t.sr.t)) =
      some (0xFF00#16, false, false) := by decide
theorem test_xor_self :
    run1 (with3 0xBEEF 0 0) 0x1C49 (fun t => (t.x .r1, t.sr.z, t.sr.t)) = some (0#16, true, true) := by decide
theorem test_not :
    run1 (with3 0x00FF 0 0) 0x070A (fun t => (t.x .r2, t.sr.z, t.sr.t)) = some (0xFF00#16, false, false) := by decide
theorem test_lsr : run1 (with3 0x8001 0 0) 0x040A (fun t => (t.x .r2, t.sr.c)) = some (0x4000#16, true) := by decide
theorem test_asr : run1 (with3 0x8001 0 0) 0x050A (fun t => (t.x .r2, t.sr.c)) = some (0xC000#16, true) := by decide
theorem test_asr_positive :
    run1 (with3 0x7FFE 0 0) 0x050A (fun t => (t.x .r2, t.sr.c)) = some (0x3FFF#16, false) := by decide
theorem test_lsrc :
    run1 (withFlags (fl false false true false) 2 0) 0x048A (fun t => (t.x .r2, t.sr.c)) =
      some (0x8001#16, false) := by decide
theorem test_lsrc_no_carry :
    run1 (withFlags (fl false false false false) 1 0) 0x048A (fun t => (t.x .r2, t.sr.c)) =
      some (0#16, true) := by decide
theorem test_cmp_k_sign : run1 (with3 0xFFF0 0 0) 0xE408 (fun t => t.sr.t) = some true := by decide
theorem test_cmp_k_gt : run1 (with3 0 0 0) 0xE7CF (fun t => t.sr.t) = some true := by decide
theorem test_cmp_lt_overflow : run1 (with3 0x8000 1 0) 0x108D (fun t => t.sr.t) = some true := by decide
theorem test_cmp_ult : run1 (with3 0x8000 1 0) 0x108B (fun t => t.sr.t) = some false := by decide
theorem test_cmpc_k_lt :
    run1 (withFlags (fl false false false false) 0 0) 0xE80D (fun t => t.sr.t) = some true := by decide
theorem test_cmpc_k_eq :
    run1 (withFlags (fl false false true true) 0 0) 0xE808 (fun t => t.sr.t) = some true := by decide
theorem test_cmpc_ugt :
    run1 (withFlags (fl false false false false) 1 0) 0x128E (fun t => t.sr.t) = some true := by decide
theorem test_cmpc_eq_chains :
    run1 (withFlags (fl false false true false) 1 1) 0x1288 (fun t => t.sr.t) = some false := by decide
theorem test_mov : run1 (with3 0 0 0xBEEF) 0x001D (fun t => t.x .r5) = some 0xBEEF#16 := by decide
theorem test_mov_sp : run1 (with3 0 0 0x0400) 0x0098 (fun t => t.sp) = some 0x0400#16 := by decide
theorem test_bswap : run1 (with3 0x1234 0 0) 0x020A (fun t => t.x .r2) = some 0x3412#16 := by decide
theorem test_sel_set :
    run1 (withFlags (fl false true false false) 0x1111 0x2222) 0x308B (fun t => t.x .r3) = some 0x1111#16 := by decide
theorem test_sel_clear :
    run1 (withFlags (fl false false false false) 0x1111 0x2222) 0x308B (fun t => t.x .r3) =
      some 0x2222#16 := by decide
theorem test_setcc_set :
    run1 (withFlags (fl false true false false) 0 0) 0x0904 (fun t => t.x .r4) = some 1#16 := by decide
theorem test_setcc_clear :
    run1 (withFlags (fl false false false false) 0 0) 0x0902 (fun t => t.x .r2) = some 0#16 := by decide
theorem test_ldw : run1 (with3 0x00FC 0 0) 0xA90A (fun t => t.x .r2) = some 0x8034#16 := by decide
theorem test_ldw_big : run1 (bigEndian (with3 0x00FC 0 0)) 0xA90A (fun t => t.x .r2) = some 0x3480#16 := by decide
theorem test_ldzb : run1 (with3 0x00FC 0 0) 0xB14A (fun t => t.x .r2) = some 0x0080#16 := by decide
theorem test_ldsb : run1 (with3 0x00FC 0 0) 0xB94A (fun t => t.x .r2) = some 0xFF80#16 := by decide
theorem test_stw :
    run1 (with3 0x0100 0xABCD 0) 0xC08A (fun t => (t.byteAt 0x0102#16, t.byteAt 0x0103#16)) =
      some (0xCD#8, 0xAB#8) := by decide
theorem test_stw_big :
    run1 (bigEndian (with3 0x0100 0xABCD 0)) 0xC08A (fun t => (t.byteAt 0x0102#16, t.byteAt 0x0103#16)) =
      some (0xAB#8, 0xCD#8) := by decide
theorem test_stb :
    run1 (with3 0x0100 0xABCD 0) 0xC84A (fun t => (t.byteAt 0x0100#16, t.byteAt 0x0101#16)) =
      some (0x34#8, 0xCD#8) := by decide
theorem test_ldw_abs : run1 base 0x5883 (fun t => t.x .r3) = some 0xFE7F#16 := by decide
theorem test_ldsb_abs : run1 base 0x608B (fun t => t.x .r3) = some 0xFFFE#16 := by decide
theorem test_stw_abs :
    run1 (with3 0 0 0x1234) 0x6FF3 (fun t => (t.byteAt 0x00FE#16, t.byteAt 0x00FF#16)) =
      some (0x34#8, 0x12#8) := by decide
theorem test_stb_abs : run1 (with3 0 0 0x1234) 0x77FB (fun t => t.byteAt 0x00FF#16) = some 0x34#8 := by decide
theorem test_ldw_sp : run1 { base with sp := 0x00FE } 0x8014 (fun t => t.x .r4) = some 0x8034#16 := by decide
theorem test_ldsb_sp : run1 { base with sp := 0x00FE } 0x881C (fun t => t.x .r4) = some 0xFF80#16 := by decide
theorem test_stw_sp :
    run1 { with3 0 0 0x5566 with sp := 0x0200 } 0x9003 (fun t => (t.byteAt 0x0200#16, t.byteAt 0x0201#16)) =
      some (0x66#8, 0x55#8) := by decide
theorem test_stb_sp :
    run1 { with3 0 0 0x5566 with sp := 0x0200 } 0x9FFB (fun t => t.byteAt 0x02FF#16) = some 0x66#8 := by decide
theorem test_ldw_reg : run1 (with3 0x00F0 0x0010 0) 0x228B (fun t => t.x .r3) = some 0x8034#16 := by decide
theorem test_ldw_reg_wraps : run1 (with3 0x0102 0xFFFE 0) 0x228B (fun t => t.x .r3) = some 0x8034#16 := by decide
theorem test_ldzb_reg : run1 (with3 0x0100 1 0) 0x248B (fun t => t.x .r3) = some 0x0080#16 := by decide
theorem test_ldsb_reg : run1 (with3 0x0100 1 0) 0x268B (fun t => t.x .r3) = some 0xFF80#16 := by decide
theorem test_stw_reg :
    run1 (with3 0x0100 0x0020 0x0A0B) 0x288B (fun t => (t.byteAt 0x0120#16, t.byteAt 0x0121#16)) =
      some (0x0B#8, 0x0A#8) := by decide
theorem test_stb_reg :
    run1 (with3 0x0100 0x0021 0x0A0B) 0x2A8B (fun t => t.byteAt 0x0121#16) = some 0x0B#8 := by decide
theorem test_ldw_program :
    run1 { with3 0x0010 0 0 with pmem := [(0x0010, 0xCAFE)] } 0x038A (fun t => t.x .r2) = some 0xCAFE#16 := by decide
theorem test_stw_odd : fault1 base 0x6FFB = some (.misalignedWord 0x00FF) := by decide
theorem test_brncc_back : run1 { base with pc := 0x0100 } 0x39FD (fun t => t.pc) = some 0x00FE#16 := by decide
theorem test_brncc_not_taken :
    run1 { base with pc := 0x0100, sr := fl false true false false } 0x3805 (fun t => t.pc) =
      some 0x0101#16 := by decide
theorem test_brcc_taken :
    run1 { base with pc := 0x0100, sr := fl false true false false } 0x3A05 (fun t => t.pc) =
      some 0x0106#16 := by decide
theorem test_brcc_not_taken : run1 { base with pc := 0x0100 } 0x3A05 (fun t => t.pc) = some 0x0101#16 := by decide
theorem test_jmp_wraps : run1 { base with pc := 0x0001 } 0x3DFD (fun t => t.pc) = some 0xFFFF#16 := by decide
theorem test_jmp_prefixed :
    run1 { base with pc := 0x0101, pfx := some 0x080 } 0x3C00 (fun t => t.pc) = some 0x1102#16 := by decide
theorem test_jmp_r : run1 (with3 0 0 0x1234) 0x083B (fun t => t.pc) = some 0x1234#16 := by decide
theorem test_call :
    run1 { base with pc := 0x0020 } 0xF123 (fun t => (t.pc, t.sp, t.byteAt 0x03FE#16, t.byteAt 0x03FF#16)) =
      some (0x0123#16, 0x03FE#16, 0x21#8, 0x00#8) := by decide
theorem test_call_sp_wraps :
    run1 { base with pc := 0x0020, sp := 0 } 0xF005 (fun t => (t.pc, t.sp, t.byteAt 0xFFFE#16)) =
      some (0x0005#16, 0xFFFE#16, 0x21#8) := by decide
theorem test_call_r :
    run1 { with3 0 0 0x0300 with pc := 0x0020 } 0x0883 (fun t => (t.pc, t.sp, t.byteAt 0x03FE#16, t.byteAt 0x03FF#16)) =
      some (0x0300#16, 0x03FE#16, 0x21#8, 0x00#8) := by decide
theorem test_ret :
    run1 { base with sp := 0x03FE, mem := [(0x03FE, 0x21), (0x03FF, 0x00)] } 0x0C00 (fun t => (t.pc, t.sp)) =
      some (0x0021#16, 0x0400#16) := by decide
theorem test_dint :
    run1 { base with sr := fl true true true true } 0x0D00 (fun t => t.sr) =
      some (fl false true true true) := by decide
theorem test_eint : run1 base 0x0D80 (fun t => t.sr) = some (fl true false false false) := by decide
theorem test_halt :
    run1 { base with pc := 0x0009 } 0x0E00 (fun t => (t.halted, t.pc)) = some (true, 0x000A#16) := by decide
theorem test_reti_refuse : fault1 base 0x0C80 = some (.interruptUnspecified (.reti 0x0C80)) := by decide
theorem test_reti :
    run1 inHandler 0x0C80 (fun t => (t.sr, t.pc, t.sp)) =
      some (fl true false true false, 0x0010#16, 0x0400#16) := by decide
theorem test_reserved : fault1 base 0x0300 = some (.reservedInstruction 0x0300) := by decide
theorem test_reserved_before_prefix :
    fault1 { base with pfx := some 0 } 0x0300 = some (.reservedInstruction 0x0300) := by decide
theorem test_not_implemented : fault1 base 0x0980 = some (.notImplemented 0x0980) := by decide

/-- The boundary of V9: a request with I set, R0..R7 and T, C, Z as there. -/
def atRequest : State :=
  { base with
    cfg := { Config.default with irqModel := .stack 0x0040 }
    irq := [true], pc := 0x0010, sr := fl true false true false }

theorem test_interrupt_entry :
    (match Sys2Proof.Machine.step atRequest with
      | .next t => some (t.pc, t.sp, t.sr, t.byteAt 0x03FE#16, t.byteAt 0x03FC#16)
      | _ => none) = some (0x0040#16, 0x03FC#16, fl false false true false, 0x10#8, 0x0A#8) := by decide

theorem test_request_waits_for_prefix :
    State.accepts { atRequest with pfx := some 0 } = false ∧
      State.accepts { atRequest with sr := fl false true true true } = false := by
  decide

theorem test_reset_memory_canonical : Memory.wf State.reset.mem ∧ ProgMem.wf State.reset.pmem := by decide


/-- R303 with the precondition of V8's `ret`: the loader gives SP, the stacked word, a register and the program. -/
theorem test_launch :
    let s := State.launch Config.default (ProgMem.ofWords 0x0123 [0x0C00])
      [(0x03FE, 0x21), (0x03FF, 0x00)] [.sp 0x03FE, .pc 0x0123, .x .r1 7, .sr (fl false false true false)]
    (s.sp, s.pc, s.x .r1, s.sr.c, s.byteAt 0x03FE#16, s.codeWord 0x0123) =
      (0x03FE#16, 0x0123#16, 7#16, true, 0x21#8, 0x0C00#16) := by decide

/-! ### A state and operands that meet the hypotheses of each statement -/

/-- `base` with a pending prefix. -/
def prefixed1 : State := { base with pfx := some 0x7FF }

/-- `base` with nothing behind any data address. -/
def noMemory : State := { base with cfg := { Config.default with dmem := [] } }

/-- `base` with byte-addressed program memory that holds `add R1, 16, R1` in its first word. -/
def byteCode : State :=
  { base with cfg := { Config.default with pmWordAddressed := false }, pmem := [(0, 0x4881)] }

/-- `base` with `add R1, 16, R1` at the pc. -/
def oneWord : State := { base with pmem := [(0, 0x4881)] }

theorem witness_EveryWordSelectsOneRow :
    (0xFFFF#16) &&& (Instr.pfix_k 0).mask = (Instr.pfix_k 0).pattern ∧
      (0x0000#16) &&& (Instr.mov_rr .r7 .r7).mask = (Instr.mov_rr .r7 .r7).pattern := by decide

theorem witness_IgnoredBitsDoNotMatter :
    (0x0FFF#16).extractLsb' 12 4 = 0b0000#4 ∧ (0x0000#16).extractLsb' 12 4 = 0b0000#4 := by decide

theorem witness_NopIsMovR0R0 : base.pfx = none := rfl

theorem witness_NopIsTheAllZeroWord : encode (.mov_rr .r0 .r0) = 0x0000#16 := by decide

theorem witness_StepRunsDecodedInstruction :
    oneWord.halted = false ∧ ¬ (oneWord.irq.headD false = true ∧ oneWord.sr.i = true ∧ oneWord.pfx = none) ∧
      oneWord.codeIndex oneWord.pc = some 0 ∧ Cells.lookup oneWord.pmem 0 = some 0x4881#16 ∧
      decode 0x4881#16 = some (.add_kr .r1 16) := by decide

theorem witness_EveryPcNamesAWord : (State.cfg { base with pc := 0xFFFF }).pmWordAddressed = true := rfl

theorem witness_StepStopsWhenHaltedOrUnloaded :
    (State.halted { base with halted := true } = true) ∧
      (base.halted = false ∧ base.irq.headD false = false ∧ base.codeIndex base.pc = some 0 ∧
        Cells.lookup base.pmem 0 = none) ∧
      (State.halted { byteCode with pc := 0xFFFF } = false ∧ byteCode.irq.headD false = false ∧
        byteCode.cfg.pmWordAddressed = false ∧ (0xFFFF#16).toNat % 2 = 1) := by decide

theorem witness_PlacedWordRunsNext :
    State.codeIndex { base with pc := 0xFFFF } 0xFFFF = some 65535 ∧
      State.codeIndex { byteCode with pc := 0xFFFE } 0xFFFE = some 32767 := by decide

theorem witness_RefusedRequestFaults :
    let s : State := { atRequest with cfg := Config.default }
    s.halted = false ∧ s.irq.headD false = true ∧ s.sr.i = true ∧ s.pfx = none ∧ s.cfg.irqModel = .refuse := by decide

/-- The two pushes at SP = 0x0400 and, wrapping, at SP = 0. -/
theorem witness_AcceptedRequestPushesPcAndFlags :
    atRequest.halted = false ∧ atRequest.irq.headD false = true ∧ atRequest.sr.i = true ∧ atRequest.pfx = none ∧
      atRequest.cfg.irqModel = .stack 0x0040 ∧ atRequest.WordAccess (0x0400#16 - 2#16) ∧
      atRequest.WordAccess (0x0400#16 - 4#16) ∧
      State.WordAccess { atRequest with sp := 0 } (0x0000#16 - 2#16) ∧
      State.WordAccess { atRequest with sp := 0 } (0x0000#16 - 4#16) := by
  simp only [State.WordAccess]
  decide

theorem witness_RetiRestoresFlagsAndPc :
    inHandler.pfx = none ∧ inHandler.cfg.irqModel = .stack 0x0040 ∧ inHandler.WordAccess inHandler.sp ∧
      inHandler.WordAccess (inHandler.sp + 2#16) ∧ State.WordAccess { inHandler with sp := 0xFFFE } 0xFFFE#16 ∧
      State.WordAccess { inHandler with sp := 0xFFFE } (0xFFFE#16 + 2#16) := by
  simp only [State.WordAccess]
  decide

/-- The hypotheses of `RetiUndoesInterruptEntry` are those of `AcceptedRequestPushesPcAndFlags`; here at SP = 2. -/
theorem witness_RetiUndoesInterruptEntry :
    let s : State := { atRequest with sp := 2 }
    s.halted = false ∧ s.irq.headD false = true ∧ s.sr.i = true ∧ s.pfx = none ∧ s.cfg.irqModel = .stack 0x0040 ∧
      s.WordAccess (s.sp - 2#16) ∧ s.WordAccess (s.sp - 4#16) := by
  simp only [State.WordAccess]
  decide

theorem witness_RetiUnderRefuseFaults : base.pfx = none ∧ base.cfg.irqModel = .refuse := by decide

theorem witness_PfixSetsThePendingPrefix :
    base.pfx = none ∧ base.cfg.pmWordAddressed = true ∧ prefixed1.pfx = some 0x7FF#11 := by decide

theorem witness_EffectiveImmediate :
    (5 ≤ 5 ∧ 5 ≤ 9 ∧ prefixed1.pfx = some 0x7FF#11) ∧ (9 ≤ 16 ∧ base.pfx = none) ∧
      (∃ t, exec (.pfix_k 0) base = .next t) ∧ ∃ t, exec (.mov_kr 0 .r0) prefixed1 = .next t :=
  ⟨by decide, by decide, ⟨_, rfl⟩, ⟨_, rfl⟩⟩

theorem witness_PrefixMisuseFaults :
    (Instr.pfix_k 0).refusesPrefix = true ∧ (Instr.add_rrr .r0 .r0 .r0).refusesPrefix = true ∧
      Instr.halt.refusesPrefix = true ∧ prefixed1.pfx = some 0x7FF#11 := by decide

/-- The single hypothesis of the arithmetic, logic, shift, compare, move, jump and system statements: no prefix pending. -/
theorem witness_AddSetsCarryAndZero : base.pfx = none := rfl
theorem witness_AddcAddsTheCarryAndChainsZero : base.pfx = none := rfl
theorem witness_SubSetsNoBorrowAndZero : base.pfx = none := rfl
theorem witness_SubcSubtractsTheBorrowAndChainsZero : base.pfx = none := rfl
theorem witness_ExtensionsOfTheLowByteAndTheSign : base.pfx = none := rfl
theorem witness_ShiftsMoveBitZeroToCarry : base.pfx = none := rfl
theorem witness_CompareSetsTToTheRelation : base.pfx = none := rfl
theorem witness_MovesWriteTheirDestination : base.pfx = none := rfl
theorem witness_InterruptEnableFollowsEintAndDint : base.pfx = none := rfl

theorem witness_LogicSetsZeroAndLeavesCarryOpen :
    base.pfx = none ∧
      ∀ i ∈ [Instr.and_rrr .r1 .r2 .r3, .or_rrr .r1 .r2 .r3, .xor_rrr .r1 .r2 .r3, .not_rr .r1 .r3],
        i = .and_rrr .r1 .r2 .r3 ∨ i = .or_rrr .r1 .r2 .r3 ∨ i = .xor_rrr .r1 .r2 .r3 ∨ i = .not_rr .r1 .r3 := by
  decide

theorem witness_AddThenAddcIsWideAddition :
    base.pfx = none ∧ base.cfg.zChain = true ∧ Reg.r4 ≠ .r1 ∧ Reg.r4 ≠ .r3 ∧ Reg.r4 ≠ .r5 := by decide

theorem witness_SubThenSubcIsWideSubtraction :
    base.pfx = none ∧ base.cfg.zChain = true ∧ Reg.r4 ≠ .r1 ∧ Reg.r4 ≠ .r3 ∧ Reg.r4 ≠ .r5 := by decide

theorem witness_SubThenCmpcIsWideCompare :
    base.pfx = none ∧ base.cfg.zChain = true ∧ Reg.r4 ≠ .r1 ∧ Reg.r4 ≠ .r3 := by decide

theorem witness_ShiftThenLsrcIsWideShift : base.pfx = none ∧ Reg.r1 ≠ .r0 ∧ (Reg.r1 ≠ .r0) := by decide

theorem witness_CompareWithCarrySetsT :
    ((∃ k : BitVec 5, Instr.cmpc_rkc .lt .r1 16 = .cmpc_rkc .lt .r1 k ∧ 0xFFF0#16 = base.immS k) ∧
      ∃ rn : Reg, Instr.cmpc_rrc .lt .r1 .r2 = .cmpc_rrc .lt .r1 rn ∧ 0#16 = base.x rn ∧ base.pfx = none) :=
  ⟨⟨16, rfl, by decide⟩, ⟨.r2, rfl, by decide, rfl⟩⟩

theorem witness_SelectAndSetFollowT :
    base.pfx = none ∧ base.sr.t = false ∧ (State.sr { base with sr := fl false true false false }).t = true := by decide

/-- Each addressing form at an even address: the first word, the last word, and a sum that wraps to 0. -/
theorem witness_WordLoadsReadTwoBytes :
    (∃ rs k, Instr.movw_mr .r1 2 .r3 = .movw_mr rs k .r3 ∧
        0x0000#16 = (with3 0xFFFE 0 0).x rs + (with3 0xFFFE 0 0).immZ k) ∧
      (∃ k, Instr.movw_ar 0xFE .r3 = .movw_ar k .r3 ∧ 0x00FE#16 = base.immZ k) ∧
      (∃ k, Instr.movw_qr 0xFE .r3 = .movw_qr k .r3 ∧ 0x04FE#16 = base.sp + base.immZ k) ∧
      (∃ rs rn, Instr.movw_nr .r1 .r2 .r3 = .movw_nr rs rn .r3 ∧
        0xFFFE#16 = (with3 0xFFFF 0xFFFF 0).x rs + (with3 0xFFFF 0xFFFF 0).x rn ∧
        (with3 0xFFFF 0xFFFF 0).pfx = none) ∧
      (with3 0xFFFE 0 0).WordAccess 0x0000#16 ∧ base.WordAccess 0x00FE#16 ∧ base.WordAccess 0x04FE#16 ∧
      (with3 0xFFFF 0xFFFF 0).WordAccess 0xFFFE#16 := by
  refine ⟨⟨.r1, 2, rfl, by decide⟩, ⟨0xFE, rfl, by decide⟩, ⟨0xFE, rfl, by decide⟩, ⟨.r1, .r2, rfl, by decide, rfl⟩, ?_⟩
  simp only [State.WordAccess]
  decide

/-- Each byte load at an address it reaches, odd and even, the last byte among them. -/
theorem witness_ByteLoadsExtend :
    (∃ rs k, Instr.movzb_mr .r1 31 .r3 = .movzb_mr rs k .r3 ∧
        0xFFFF#16 = (with3 0xFFE0 0 0).x rs + (with3 0xFFE0 0 0).immZ k) ∧
      (∃ rs rn, Instr.movzb_nr .r1 .r2 .r3 = .movzb_nr rs rn .r3 ∧ 0#16 = base.x rs + base.x rn ∧ base.pfx = none) ∧
      (∃ rs k, Instr.movsb_mr .r1 0 .r3 = .movsb_mr rs k .r3 ∧ 0#16 = base.x rs + base.immZ k) ∧
      (∃ k, Instr.movsb_ar 0xFF .r3 = .movsb_ar k .r3 ∧ 0x00FF#16 = base.immZ k) ∧
      (∃ k, Instr.movsb_qr 0xFF .r3 = .movsb_qr k .r3 ∧ 0x04FF#16 = base.sp + base.immZ k) ∧
      (∃ rs rn, Instr.movsb_nr .r1 .r2 .r3 = .movsb_nr rs rn .r3 ∧ 0#16 = base.x rs + base.x rn ∧ base.pfx = none) ∧
      base.dmemValid 0#16 = true ∧ base.dmemValid 0x00FF#16 = true ∧ base.dmemValid 0x04FF#16 = true ∧
      (with3 0xFFE0 0 0).dmemValid 0xFFFF#16 = true :=
  ⟨⟨.r1, 31, rfl, by decide⟩, ⟨.r1, .r2, rfl, by decide, rfl⟩, ⟨.r1, 0, rfl, by decide⟩, ⟨0xFF, rfl, by decide⟩,
    ⟨0xFF, rfl, by decide⟩, ⟨.r1, .r2, rfl, by decide, rfl⟩, by decide⟩

theorem witness_WordStoresWriteTwoBytes :
    (∃ rs k, Instr.movw_rm .r3 .r1 2 = .movw_rm .r3 rs k ∧
        0x0000#16 = (with3 0xFFFE 0 0).x rs + (with3 0xFFFE 0 0).immZ k) ∧
      (∃ k, Instr.movw_ra .r3 0xFE = .movw_ra .r3 k ∧ 0x00FE#16 = base.immZ k) ∧
      (∃ k, Instr.movw_rq .r3 0xFE = .movw_rq .r3 k ∧ 0x04FE#16 = base.sp + base.immZ k) ∧
      (∃ rs rn, Instr.movw_rn .r3 .r1 .r2 = .movw_rn .r3 rs rn ∧
        0xFFFE#16 = (with3 0xFFFF 0xFFFF 0).x rs + (with3 0xFFFF 0xFFFF 0).x rn ∧
        (with3 0xFFFF 0xFFFF 0).pfx = none) ∧
      (with3 0xFFFE 0 0).WordAccess 0x0000#16 ∧ base.WordAccess 0x00FE#16 ∧ base.WordAccess 0x04FE#16 ∧
      (with3 0xFFFF 0xFFFF 0).WordAccess 0xFFFE#16 := by
  refine ⟨⟨.r1, 2, rfl, by decide⟩, ⟨0xFE, rfl, by decide⟩, ⟨0xFE, rfl, by decide⟩, ⟨.r1, .r2, rfl, by decide, rfl⟩, ?_⟩
  simp only [State.WordAccess]
  decide

theorem witness_ByteStoresWriteTheLowByte :
    (∃ rs k, Instr.movb_rm .r3 .r1 31 = .movb_rm .r3 rs k ∧
        0xFFFF#16 = (with3 0xFFE0 0 0).x rs + (with3 0xFFE0 0 0).immZ k) ∧
      (∃ k, Instr.movb_ra .r3 0xFF = .movb_ra .r3 k ∧ 0x00FF#16 = base.immZ k) ∧
      (∃ k, Instr.movb_rq .r3 0xFF = .movb_rq .r3 k ∧ 0x04FF#16 = base.sp + base.immZ k) ∧
      (∃ rs rn, Instr.movb_rn .r3 .r1 .r2 = .movb_rn .r3 rs rn ∧ 0#16 = base.x rs + base.x rn ∧ base.pfx = none) ∧
      base.dmemValid 0#16 = true ∧ base.dmemValid 0x00FF#16 = true ∧ base.dmemValid 0x04FF#16 = true ∧
      (with3 0xFFE0 0 0).dmemValid 0xFFFF#16 = true :=
  ⟨⟨.r1, 31, rfl, by decide⟩, ⟨0xFF, rfl, by decide⟩, ⟨0xFF, rfl, by decide⟩, ⟨.r1, .r2, rfl, by decide, rfl⟩, by decide⟩

/-- The three clauses exclude each other; each at the last address it takes. -/
theorem witness_ProgramLoadReadsTheWord :
    (base.pfx = none ∧ base.cfg.pmWordAddressed = true) ∧
      (byteCode.pfx = none ∧ byteCode.cfg.pmWordAddressed = false ∧ (0xFFFE#16).toNat % 2 = 0 ∧
        (State.x { byteCode with regs := ⟨0xFFFE, 0, 0, 0, 0, 0, 0, 0⟩ } .r0) = 0xFFFE#16) ∧
      (0xFFFF#16).toNat % 2 = 1 ∧ (State.x { byteCode with regs := ⟨0xFFFF, 0, 0, 0, 0, 0, 0, 0⟩ } .r0) = 0xFFFF#16 := by
  decide

/-- Every addressing form, call, return and the pushes of interrupt entry at an odd address, 0xFFFF among them. -/
theorem witness_OddWordAccessFaults :
    (base.cfg.misalignedWord = .fault ∧ base.AccessesWord (.movw_mr .r1 1 .r3) 0x0001#16 ∧
      base.AccessesWord (.movw_ra .r3 0xFF) 0x00FF#16 ∧ base.AccessesWord (.movw_qr 1 .r3) 0x0401#16 ∧
      (with3 0xFFFF 0 0).AccessesWord (.movw_rn .r3 .r1 .r2) 0xFFFF#16 ∧
      State.AccessesWord { base with sp := 1 } (.call 0) 0xFFFF#16 ∧
      State.AccessesWord { base with sp := 1 } (.call_r .r1) 0xFFFF#16 ∧
      State.AccessesWord { base with sp := 0xFFFF } .ret 0xFFFF#16 ∧
      State.AccessesWord { inHandler with sp := 0xFFFF } .reti 0xFFFF#16) ∧
    (atRequest.cfg.misalignedWord = .fault ∧ State.TakesRequest { atRequest with sp := 1 } 0x0040 ∧
      State.TakesRequest { atRequest with sp := 0xFFFF } 0x0040) :=
  ⟨⟨rfl, .inl ⟨.r3, .inl (.inl ⟨.r1, 1, rfl, by decide⟩)⟩, .inl ⟨.r3, .inr (.inr (.inl ⟨0xFF, rfl, by decide⟩))⟩,
      .inl ⟨.r3, .inl (.inr (.inr (.inl ⟨1, rfl, by decide⟩)))⟩,
      .inl ⟨.r3, .inr (.inr (.inr (.inr ⟨.r1, .r2, rfl, by decide, rfl⟩)))⟩, .inr (.inl ⟨0, rfl, by decide⟩),
      .inr (.inr (.inl ⟨.r1, rfl, by decide, rfl⟩)), .inr (.inr (.inr (.inl ⟨rfl, rfl, rfl⟩))),
      .inr (.inr (.inr (.inr ⟨0x0040, rfl, rfl, rfl, rfl⟩)))⟩,
    rfl, ⟨rfl, rfl, rfl, rfl, rfl⟩, ⟨rfl, rfl, rfl, rfl, rfl⟩⟩

/-- Both readings at the lowest and, for the one that does not wrap, the highest odd address. -/
theorem witness_OddWordAccessUnderTheOtherReadings :
    let s (m : Misaligned) : State := { with3 0xFFFF 0 0 with cfg := { Config.default with misalignedWord := m } }
    ((s .ignoreBit0).cfg.misalignedWord = .ignoreBit0 ∧ 0xFFFE#16 = 0xFFFF#16 - 1#16) ∧
      ((s .split).cfg.misalignedWord = .split) ∧ (0xFFFF#16).toNat % 2 = 1 ∧
      (0xFFFF#16 = (s .split).x .r1 + (s .split).immZ 0#5) ∧ (0x0001#16 = (s .split).immZ 1#8) ∧
      (0x0401#16 = (s .split).sp + (s .split).immZ 1#8) ∧ (0xFFFF#16 = (s .split).x .r1 + (s .split).x .r2) ∧
      (s .split).pfx = none ∧ (s .ignoreBit0).dmemValid 0xFFFE#16 = true ∧ (s .split).dmemValid 0xFFFF#16 = true ∧
      (s .split).dmemValid (0xFFFF#16 + 1#16) = true := by decide

/-- `s` with memory below `n` only, under a reading of MISALIGNED_WORD. -/
def bounded (s : State) (m : Misaligned) (n : Nat) : State :=
  { s with cfg := { s.cfg with misalignedWord := m, dmem := [⟨0, n⟩] } }

/-- One witness for each clause: a word of which only the first byte is backed, at an even address and at an odd one under
either reading; the second pop of `reti`; the first push of interrupt entry, wrapping; and its second push alone. -/
theorem witness_UnbackedWordAccessFaults :
    (let s := bounded base .fault 0x00FF;
      s.AccessesWord (.movw_ar 0xFE .r3) 0x00FE#16 ∧ s.FirstByte 0x00FE#16 0x00FE#16 ∧ ¬ s.Backed 0x00FE#16) ∧
    (let s := bounded base .ignoreBit0 0x00FE;
      s.AccessesWord (.movw_ar 0xFF .r3) 0x00FF#16 ∧ s.FirstByte 0x00FF#16 0x00FE#16 ∧ ¬ s.Backed 0x00FE#16) ∧
    (let s := bounded base .split 0x0100;
      s.AccessesWord (.movw_ra .r3 0xFF) 0x00FF#16 ∧ s.FirstByte 0x00FF#16 0x00FF#16 ∧ ¬ s.Backed 0x00FF#16) ∧
    (let s := bounded inHandler .fault 0x03FE;
      s.pfx = none ∧ s.cfg.irqModel = .stack 0x0040 ∧ s.FirstByte s.sp 0x03FC#16 ∧ s.Backed 0x03FC#16 ∧
        s.FirstByte (s.sp + 2#16) 0x03FE#16 ∧ ¬ s.Backed 0x03FE#16) ∧
    (let s := bounded { atRequest with sp := 0 } .fault 0x0400;
      s.TakesRequest 0x0040 ∧ s.FirstByte (s.sp - 2#16) 0xFFFE#16 ∧ ¬ s.Backed 0xFFFE#16) ∧
    (let s := bounded { atRequest with sp := 2 } .fault 0x0400;
      s.TakesRequest 0x0040 ∧ s.FirstByte (s.sp - 2#16) 0x0000#16 ∧ s.Backed 0x0000#16 ∧
        s.FirstByte (s.sp - 4#16) 0xFFFE#16 ∧ ¬ s.Backed 0xFFFE#16) := by
  refine ⟨⟨.inl ⟨.r3, .inl (.inr (.inl ⟨0xFE, rfl, by decide⟩))⟩, ?_⟩,
    ⟨.inl ⟨.r3, .inl (.inr (.inl ⟨0xFF, rfl, by decide⟩))⟩, ?_⟩,
    ⟨.inl ⟨.r3, .inr (.inr (.inl ⟨0xFF, rfl, by decide⟩))⟩, ?_⟩, ?_⟩ <;>
  simp only [State.FirstByte, State.Backed, State.TakesRequest] <;> decide

theorem witness_UnbackedAccessFaults :
    noMemory.dmemValid 0x0000#16 = false ∧ noMemory.dmemValid 0xFFFF#16 = false ∧
      (0x0000#16 = noMemory.x .r1 + noMemory.immZ 0#5) ∧ (0x00FF#16 = noMemory.immZ 0xFF#8) ∧
      (0x04FF#16 = noMemory.sp + noMemory.immZ 0xFF#8) ∧ (0x0000#16 = noMemory.x .r1 + noMemory.x .r2) ∧
      noMemory.pfx = none ∧ base.cfg.dmem = Config.default.dmem := by decide

/-- A store, and then a prefixed load in another form from a state in which another byte has changed as well; and the odd
address 0xFFFF under the split reading. -/
theorem witness_StoredWordIsLoadedBack :
    (∃ t, exec (.movw_ra .r3 0x02) base = .next t ∧ base.StoresWord (.movw_ra .r3 0x02) .r3 0x0002#16 ∧
      base.FirstByte 0x0002#16 0x0002#16 ∧
      (let u : State := { (t.putByte 0x0200 0xAA) with pfx := some 0 };
        u.cfg = base.cfg ∧ u.byteAt 0x0002 = t.byteAt 0x0002 ∧ u.byteAt (0x0002 + 1#16) = t.byteAt (0x0002 + 1#16) ∧
          u.LoadsWord (.movw_mr .r1 2 .r4) .r4 0x0002#16)) ∧
    (let s := bounded (with3 0xFFFF 0 0) .split 65536;
      ∃ t, exec (.movw_rn .r3 .r1 .r2) s = .next t ∧ s.StoresWord (.movw_rn .r3 .r1 .r2) .r3 0xFFFF#16 ∧
        s.FirstByte 0xFFFF#16 0xFFFF#16 ∧ t.cfg = s.cfg ∧ t.LoadsWord (.movw_nr .r1 .r2 .r4) .r4 0xFFFF#16) := by
  refine ⟨⟨_, rfl, .inr (.inl ⟨2, rfl, by decide⟩), ?_, rfl, by decide, by decide, .inl ⟨.r1, 2, rfl, by decide⟩⟩,
    ⟨_, rfl, .inr (.inr (.inr ⟨.r1, .r2, rfl, by decide, rfl⟩)), ?_, rfl,
      .inr (.inr (.inr ⟨.r1, .r2, rfl, by decide, rfl⟩))⟩⟩ <;>
  simp only [State.FirstByte] <;> decide

theorem witness_BranchesGoToTheirTarget :
    base.sr.t = false ∧ (State.sr { base with sr := fl false true false false }).t = true ∧ base.pfx = none := by decide

/-- The stacked word at SP - 2, for SP = 0x0400 and, wrapping, for SP = 0. -/
theorem witness_CallsPushTheReturnAddress :
    (∃ k, Instr.call 0x123 = .call k ∧ 0x0123#16 = base.immZ k) ∧
      (∃ rd, Instr.call_r .r3 = .call_r rd ∧ 0x0000#16 = base.x rd ∧ base.pfx = none) ∧
      base.WordAccess (base.sp - 2#16) ∧ State.WordAccess { base with sp := 0 } (0x0000#16 - 2#16) := by
  refine ⟨⟨0x123, rfl, by decide⟩, ⟨.r3, rfl, by decide, rfl⟩, ?_⟩
  simp only [State.WordAccess]
  decide

theorem witness_RetPopsThePc : base.pfx = none ∧ base.WordAccess base.sp ∧
      State.WordAccess { base with sp := 0xFFFE } 0xFFFE#16 := by
  simp only [State.WordAccess]
  decide

/-- After either call the subroutine has changed a register, a flag and a byte of memory beside the stacked word; the
second call's push wraps to 0xFFFE. -/
theorem witness_RetReturnsToAfterTheCall :
    (∃ t, exec (.call 0x123) base = .next t ∧ base.FirstByte (base.sp - 2#16) 0x03FE#16 ∧
      (let u : State := { (t.putByte 0x0200 0xAA).setX .r1 7 with sr := fl false true true true };
        u.cfg = t.cfg ∧ u.sp = t.sp ∧ u.pfx = none ∧ u.byteAt 0x03FE = t.byteAt 0x03FE ∧
          u.byteAt (0x03FE + 1#16) = t.byteAt (0x03FE + 1#16) ∧ u.byteAt 0x0200 = 0xAA)) ∧
    (let s : State := { base with sp := 0 };
      ∃ t, exec (.call_r .r3) s = .next t ∧ s.FirstByte (s.sp - 2#16) 0xFFFE#16 ∧ t.pfx = none) := by
  refine ⟨⟨_, rfl, ?_, rfl, rfl, rfl, by decide, by decide, by decide⟩, ⟨_, rfl, ?_, rfl⟩⟩ <;>
  simp only [State.FirstByte] <;> decide

theorem witness_HaltEndsTheRun : base.pfx = none ∧ ∃ t, exec .halt base = .next t := ⟨rfl, _, rfl⟩

theorem witness_SlotsWithoutInstructionFault :
    Instr.reserved_R2_11111.status = .reserved ∧ Instr.reserved_I2_11010.status = .reserved ∧
      (Instr.set_rr .r0 .r1).status = .notImplemented := by decide

theorem witness_OnlyTheDestinationRegisterChanges :
    (∃ t, exec (.add_rrr .r1 .r2 .r3) base = .next t) ∧ (Instr.add_rrr .r1 .r2 .r3).dest ≠ some .r1 :=
  ⟨⟨_, rfl⟩, by decide⟩

theorem witness_OnlyListedInstructionsChangeSP :
    (∃ t, exec (.add_rrr .r1 .r2 .r3) base = .next t) ∧ (Instr.add_rrr .r1 .r2 .r3).writesSP = false ∧
      Instr.add_rrr .r1 .r2 .r3 ≠ .halt :=
  ⟨⟨_, rfl⟩, by decide⟩

theorem witness_FlagsChangeOnlyAsTabled :
    (∃ t, exec (.mov_rr .r1 .r2) base = .next t) ∧ (Instr.mov_rr .r1 .r2).writesC = false ∧
      (Instr.mov_rr .r1 .r2).writesZ = false ∧ (Instr.mov_rr .r1 .r2).writesT = false ∧
      (Instr.mov_rr .r1 .r2).writesI = false :=
  ⟨⟨_, rfl⟩, by decide⟩

theorem witness_OnlyStoresAndCallsChangeMemory :
    (∃ t, exec .ret base = .next t) ∧ Instr.ret.writesMem = false := ⟨⟨_, rfl⟩, rfl⟩

theorem witness_PcAdvancesOutsideTheBranchFamily :
    (∃ t, exec (.mov_rr .r1 .r2) base = .next t) ∧ (Instr.mov_rr .r1 .r2).writesPC = false := ⟨⟨_, rfl⟩, rfl⟩

/-- A run of one step, so that more than its first state is meant. -/
theorem witness_RunsKeepProgramMemory : ∃ t, t ≠ oneWord ∧ Reaches oneWord t :=
  ⟨_, fun h => absurd (congrArg State.pc h) (by decide), .step .refl rfl⟩

theorem witness_StepsKeepCanonicalMemory :
    oneWord.Canonical ∧ (∃ t, Sys2Proof.Machine.step oneWord = .next t) ∧ ∃ t, t ≠ oneWord ∧ Reaches oneWord t :=
  ⟨⟨by decide, by decide⟩, ⟨_, rfl⟩, witness_RunsKeepProgramMemory⟩

end Sys2Proof.Tests
end

section
/-! The memories under one instruction, one step and one run (R54, R58, R68): what an instruction can leave in data memory,
that nothing writes program memory, and the canonical form that follows. -/

namespace Sys2Proof.Machine

/-! ### What one instruction can do to the memories -/

/-- The data memories that one store operation can leave behind (R53). -/
inductive State.Stored (s : State) : Memory → Prop where
  | byte (a : Word) (v : Byte) : s.Stored (s.putByte a v).mem
  | word (b v : Word) : s.Stored (s.putWord b v).mem

/-- An outcome that keeps the parameters and program memory of `s`, and its data memory as well, save for one store when
`w` permits it. -/
def State.MemoryFrame (s : State) (w : Bool) (r : Result) : Prop :=
  ∀ t, r = .next t → t.cfg = s.cfg ∧ t.pmem = s.pmem ∧ (t.mem = s.mem ∨ (w = true ∧ s.Stored t.mem))

namespace State.MemoryFrame

variable {s t : State} {w : Bool} {r : Result} {rd : Reg} {a v : Word}

theorem of_fault {f : Fault} : s.MemoryFrame w (.fault f) := by
  rintro _ ⟨⟩

theorem of_refused {f : Refusal} : s.MemoryFrame w (.refused f) := by
  rintro _ ⟨⟩

theorem of_same (hcfg : t.cfg = s.cfg) (hpmem : t.pmem = s.pmem) (hmem : t.mem = s.mem) :
    s.MemoryFrame w (.next t) := by
  rintro _ ⟨⟩
  exact ⟨hcfg, hpmem, .inl hmem⟩

theorem of_stored (hcfg : t.cfg = s.cfg) (hpmem : t.pmem = s.pmem) (hmem : s.Stored t.mem) :
    s.MemoryFrame true (.next t) := by
  rintro _ ⟨⟩
  exact ⟨hcfg, hpmem, .inr ⟨rfl, hmem⟩⟩

/-- A frame needs to be shown only for the next states that the outcome can be. -/
theorem of_next (h : ∀ t, r = .next t → s.MemoryFrame w (.next t)) : s.MemoryFrame w r :=
  fun t ht => h t ht t rfl

/-- The check for a pending prefix adds a fault and nothing else (R124). -/
theorem unprefixed (h : s.MemoryFrame w r) : s.MemoryFrame w (s.unprefixed r) :=
  fun t ht => h t (State.unprefixed_next ht).2

theorem finish : s.MemoryFrame w (s.finish rd v) := of_same rfl rfl rfl

theorem loadWord : s.MemoryFrame w (s.loadWord rd a) := by
  refine of_next fun t ht => ?_
  obtain ⟨_, _, rfl⟩ := State.loadWord_next ht
  exact of_same rfl rfl rfl

theorem loadZeroByte : s.MemoryFrame w (s.loadZeroByte rd a) := by
  refine of_next fun t ht => ?_
  obtain ⟨_, rfl⟩ := State.loadZeroByte_next ht
  exact of_same rfl rfl rfl

theorem loadSignByte : s.MemoryFrame w (s.loadSignByte rd a) := by
  refine of_next fun t ht => ?_
  obtain ⟨_, rfl⟩ := State.loadSignByte_next ht
  exact of_same rfl rfl rfl

theorem storeWord : s.MemoryFrame true (s.storeWord rd a) := by
  refine of_next fun t ht => ?_
  obtain ⟨c, _, rfl⟩ := State.storeWord_next ht
  exact of_stored rfl rfl (.word c _)

theorem storeByte : s.MemoryFrame true (s.storeByte rd a) := by
  refine of_next fun t ht => ?_
  obtain ⟨_, rfl⟩ := State.storeByte_next ht
  exact of_stored rfl rfl (.byte a _)

theorem callTo : s.MemoryFrame true (s.callTo a) := by
  refine of_next fun t ht => ?_
  obtain ⟨c, _, rfl⟩ := State.callTo_next ht
  exact of_stored rfl rfl (.word c _)

theorem returnTo : s.MemoryFrame w s.returnTo := by
  refine of_next fun t ht => ?_
  obtain ⟨_, _, rfl⟩ := State.returnTo_next ht
  exact of_same rfl rfl rfl

theorem leaveInterrupt : s.MemoryFrame w s.leaveInterrupt := by
  refine of_next fun t ht => ?_
  obtain ⟨_, _, _, _, rfl⟩ := State.leaveInterrupt_next ht
  exact of_same rfl rfl rfl

/-- `ld.w {Rs}` reads program memory and writes a register alone (R219). -/
theorem movwPr {rs : Reg} : s.MemoryFrame w (execMovwPr rs rd s) := by
  refine unprefixed ?_
  split
  · exact of_refused
  · exact finish

/-- `reti` faults or returns, and neither writes memory (R257, R280). -/
theorem reti : s.MemoryFrame w (execReti s) := by
  refine unprefixed ?_
  split
  · exact of_fault
  · exact leaveInterrupt

theorem pfixK {k : BitVec 11} : s.MemoryFrame w (execPfixK k s) := by
  unfold execPfixK
  split
  · exact of_fault
  · exact of_same rfl rfl rfl

end State.MemoryFrame

open State.MemoryFrame in
/-- No instruction writes program memory or a parameter, and only a store or a call writes data memory, by one store
operation (R54, R58, R68). -/
theorem exec_memoryFrame (i : Instr) (s : State) : s.MemoryFrame i.writesMem (exec i s) := by
  cases i
  -- Stores and calls
  case movw_rm | movw_ra | movw_rq => exact storeWord
  case movb_rm | movb_ra | movb_rq => exact storeByte
  case movw_rn => exact unprefixed storeWord
  case movb_rn => exact unprefixed storeByte
  case call => exact callTo
  case call_r => exact unprefixed callTo
  -- Loads and returns
  case movw_mr | movw_ar | movw_qr => exact loadWord
  case movzb_mr => exact loadZeroByte
  case movsb_mr | movsb_ar | movsb_qr => exact loadSignByte
  case movw_nr => exact unprefixed loadWord
  case movzb_nr => exact unprefixed loadZeroByte
  case movsb_nr => exact unprefixed loadSignByte
  case movw_pr => exact movwPr
  case ret => exact unprefixed returnTo
  case reti => exact reti
  -- Immediate forms, which write registers and flags
  case lea_mr | lea_qr | mov_kr => exact finish
  case and_kr | cmp_rkc | cmpc_rkc | add_kr | sub_kr | add_kq | br_nt | br_t | jmp_k => exact of_same rfl rfl rfl
  case pfix_k => exact pfixK
  -- Register forms, which write registers and flags
  case sel_rrr | mov_rr | zext_rr | sext_rr | bswap_rr | sextw_rr | set_1r => exact unprefixed finish
  case cmp_rrc | cmpc_rrc | sub_rrr | subc_rrr | or_rrr | and_rrr | xor_rrr | adc_rrr | add_rrr | lsr_rr | lsrc_rr
      | asr_rr | neg_rr | not_rr | mov_rq | jmp_r | dint | eint | halt =>
    exact unprefixed (of_same rfl rfl rfl)
  -- Slots without an instruction
  case reserved_I2_11010 | reserved_R3_10110 | reserved_R3_10111 | reserved_R3_11001 | reserved_R3_11010
      | reserved_R3_11011 | reserved_R2_00110 | reserved_R2_01011 | reserved_R2_01100 | reserved_R2_01111
      | reserved_R2_10100 | reserved_R2_10101 | reserved_R2_11101 | reserved_R2_11110 | reserved_R2_11111
      | set_rr | mov_sr | mov_rs =>
    exact of_fault

/-! ### The canonical form (log entry 21) -/

theorem State.Stored.wf {s : State} {m : Memory} (h : s.Stored m) (hs : Memory.wf s.mem) : Memory.wf m := by
  cases h with
  | byte a v => exact State.putByte_wf s a v hs
  | word b v => exact State.putWord_wf s b v hs

theorem exec_canonical {i : Instr} {s t : State} (hs : s.Canonical) (h : exec i s = .next t) : t.Canonical := by
  obtain ⟨hmem, hpmem⟩ := hs
  obtain ⟨-, hp, hm⟩ := exec_memoryFrame i s t h
  refine ⟨?_, hp ▸ hpmem⟩
  rcases hm with hm | ⟨-, hm⟩
  · exact hm ▸ hmem
  · exact hm.wf hmem

/-- Interrupt entry is two word stores, and each keeps the form (R279). -/
theorem State.takeInterrupt_canonical {s t : State} (hs : s.Canonical) (h : s.takeInterrupt = .next t) :
    t.Canonical := by
  obtain ⟨hmem, hpmem⟩ := hs
  obtain ⟨_, -, he⟩ := State.takeInterrupt_next h
  obtain ⟨c, d, -, -, rfl⟩ := State.enterInterrupt_next he
  exact ⟨State.putWord_wf _ d _ (State.putWord_wf s c _ hmem), hpmem⟩

theorem State.sampled_canonical {s : State} (hs : s.Canonical) : s.sampled.Canonical := hs

theorem step_canonical {s t : State} (hs : s.Canonical) (h : step s = .next t) : t.Canonical := by
  obtain ⟨-, ⟨-, hirq⟩ | ⟨-, _, _, -, -, hexec⟩⟩ := step_next h
  · exact State.takeInterrupt_canonical (State.sampled_canonical hs) hirq
  · exact exec_canonical (State.sampled_canonical hs) hexec

theorem Reaches.canonical {s t : State} (h : Reaches s t) (hs : s.Canonical) : t.Canonical := by
  induction h with
  | refl => exact hs
  | step _ hstep ih => exact step_canonical ih hstep

/-- Settles O58: the step lemma, and its closure by induction on the run. -/
theorem stepsKeepCanonicalMemory : Obligations.StepsKeepCanonicalMemory :=
  ⟨fun _ _ => step_canonical, fun _ _ hs h => h.canonical hs⟩

end Sys2Proof.Machine
end

section
/-! What one instruction can do to the state, said once: `exec_effect` lists every form the next state can take, with
the spec's lists of writers (R23, R25, R34, R58, R100) as its side conditions. The frame of the register file follows. -/

namespace Sys2Proof.Machine

/-- The next states that an instruction can leave behind, by what it writes beside the pc and the prefix. -/
inductive State.Effect (i : Instr) (s : State) : State → Prop where
  /-- One general register, and the flags C, Z and T when the instruction is one of their writers. -/
  | register {rd : Reg} (v : Word) (f : SR) (n : Nat) (hdest : i.dest = some rd) (hi : f.i = s.sr.i)
      (hflags : f = s.sr ∨ i.writesC = true) :
      s.Effect i { s with regs := s.regs.set rd v, sr := f, draws := n, pfx := none, pc := s.nextPc }
  /-- Data memory. -/
  | store (m : Memory) (hmem : i.writesMem = true) : s.Effect i { s with mem := m, pfx := none, pc := s.nextPc }
  /-- The stack pointer. -/
  | stackPointer (v : Word) (hsp : i.writesSP = true) : s.Effect i { s with sp := v, pfx := none, pc := s.nextPc }
  /-- T alone. -/
  | compare (b : Bool) (ht : i.writesT = true) :
      s.Effect i { s with sr := { s.sr with t := b }, pfx := none, pc := s.nextPc }
  /-- I alone. -/
  | enable (b : Bool) (hi : i.writesI = true) :
      s.Effect i { s with sr := { s.sr with i := b }, pfx := none, pc := s.nextPc }
  /-- A jump or a branch. -/
  | jump (target : Word) (hpc : i.writesPC = true) : s.Effect i { s with pfx := none, pc := target }
  /-- A call: a push, then a jump. -/
  | call (m : Memory) (sp target : Word) (hmem : i.writesMem = true) (hsp : i.writesSP = true)
      (hpc : i.writesPC = true) : s.Effect i { s with mem := m, sp := sp, pfx := none, pc := target }
  /-- A return: one pop or two, then a jump; `reti` alone brings the flags back. -/
  | ret (sp target : Word) (f : SR) (hsp : i.writesSP = true) (hpc : i.writesPC = true)
      (hflags : f = s.sr ∨ i = .reti) : s.Effect i { s with sp := sp, sr := f, pfx := none, pc := target }
  /-- `pfix_k`. -/
  | setPrefix (k : BitVec 11) (hi : i = .pfix_k k) : s.Effect i { s with pfx := some k, pc := s.nextPc }
  /-- `halt`. -/
  | halt (hi : i = .halt) : s.Effect i { s with halted := true, pfx := none, pc := s.nextPc }

namespace State.Effect

variable {i : Instr} {s t : State} {rd : Reg} {a b r v : Word} {c z : Bool} {cc : Cond}

/-! ### The shared endings of instructions -/

theorem of_finish (hdest : i.dest = some rd) (h : s.finish rd v = .next t) : s.Effect i t := by
  cases h
  exact .register v s.sr s.draws hdest rfl (.inl rfl)

theorem of_finishCZT (hdest : i.dest = some rd) (hc : i.writesC = true) (h : s.finishCZT rd r c z = .next t) :
    s.Effect i t := by
  cases h
  exact .register r _ s.draws hdest rfl (.inr hc)

theorem of_finishLogic (hdest : i.dest = some rd) (hc : i.writesC = true) (h : s.finishLogic rd a b r = .next t) :
    s.Effect i t := by
  cases h
  exact .register r _ _ hdest rfl (.inr hc)

theorem of_finishShift (hdest : i.dest = some rd) (hc : i.writesC = true) (h : s.finishShift rd a r = .next t) :
    s.Effect i t := by
  cases h
  exact .register r _ _ hdest rfl (.inr hc)

theorem of_loadWord (hdest : i.dest = some rd) (h : s.loadWord rd a = .next t) : s.Effect i t := by
  obtain ⟨_, _, rfl⟩ := State.loadWord_next h
  exact of_finish hdest rfl

theorem of_loadZeroByte (hdest : i.dest = some rd) (h : s.loadZeroByte rd a = .next t) : s.Effect i t := by
  obtain ⟨_, rfl⟩ := State.loadZeroByte_next h
  exact of_finish hdest rfl

theorem of_loadSignByte (hdest : i.dest = some rd) (h : s.loadSignByte rd a = .next t) : s.Effect i t := by
  obtain ⟨_, rfl⟩ := State.loadSignByte_next h
  exact of_finish hdest rfl

theorem of_storeWord (hmem : i.writesMem = true) (h : s.storeWord rd a = .next t) : s.Effect i t := by
  obtain ⟨_, _, rfl⟩ := State.storeWord_next h
  exact .store _ hmem

theorem of_storeByte (hmem : i.writesMem = true) (h : s.storeByte rd a = .next t) : s.Effect i t := by
  obtain ⟨_, rfl⟩ := State.storeByte_next h
  exact .store _ hmem

theorem of_callTo (hmem : i.writesMem = true) (hsp : i.writesSP = true) (hpc : i.writesPC = true)
    (h : s.callTo a = .next t) : s.Effect i t := by
  obtain ⟨_, _, rfl⟩ := State.callTo_next h
  exact .call _ _ a hmem hsp hpc

theorem of_movwPr {rs : Reg} (hdest : i.dest = some rd) (h : execMovwPr rs rd s = .next t) : s.Effect i t := by
  obtain ⟨-, h⟩ := State.unprefixed_next h
  split at h
  · cases h
  · exact of_finish hdest h

theorem of_ret (h : execRet s = .next t) : s.Effect .ret t := by
  obtain ⟨-, h⟩ := State.unprefixed_next h
  obtain ⟨ra, _, rfl⟩ := State.returnTo_next h
  exact .ret _ ra s.sr rfl rfl (.inl rfl)

theorem of_reti (h : execReti s = .next t) : s.Effect .reti t := by
  obtain ⟨-, h⟩ := State.unprefixed_next h
  split at h
  · cases h
  · obtain ⟨img, ra, _, _, rfl⟩ := State.leaveInterrupt_next h
    exact .ret _ ra (flagsOfImage img) rfl rfl (.inr rfl)

theorem of_pfixK {k : BitVec 11} (h : execPfixK k s = .next t) : s.Effect (.pfix_k k) t := by
  unfold execPfixK at h
  split at h
  · cases h
  · cases h
    exact .setPrefix k rfl

end State.Effect

open State State.Effect in
/-- Everything an instruction that answers a next state can have done. -/
theorem exec_effect {i : Instr} {s t : State} (h : exec i s = .next t) : s.Effect i t := by
  cases i
  -- Loads
  case movw_mr | movw_ar | movw_qr => exact of_loadWord rfl h
  case movzb_mr => exact of_loadZeroByte rfl h
  case movsb_mr | movsb_ar | movsb_qr => exact of_loadSignByte rfl h
  case movw_nr => exact of_loadWord rfl (unprefixed_next h).2
  case movzb_nr => exact of_loadZeroByte rfl (unprefixed_next h).2
  case movsb_nr => exact of_loadSignByte rfl (unprefixed_next h).2
  case movw_pr => exact of_movwPr rfl h
  -- Stores
  case movw_rm | movw_ra | movw_rq => exact of_storeWord rfl h
  case movb_rm | movb_ra | movb_rq => exact of_storeByte rfl h
  case movw_rn => exact of_storeWord rfl (unprefixed_next h).2
  case movb_rn => exact of_storeByte rfl (unprefixed_next h).2
  -- Moves, extensions and address sums: a register, and no flag (D13)
  case lea_mr | lea_qr | mov_kr => exact of_finish rfl h
  case sel_rrr | mov_rr | zext_rr | sext_rr | bswap_rr | sextw_rr | set_1r =>
    exact of_finish rfl (unprefixed_next h).2
  -- Arithmetic, logic and shifts: a register and the flags
  case add_kr | sub_kr => exact of_finishCZT rfl rfl h
  case add_rrr | adc_rrr | sub_rrr | subc_rrr | neg_rr => exact of_finishCZT rfl rfl (unprefixed_next h).2
  case and_kr => exact of_finishLogic rfl rfl h
  case and_rrr | or_rrr | xor_rrr | not_rr => exact of_finishLogic rfl rfl (unprefixed_next h).2
  case lsr_rr | lsrc_rr | asr_rr => exact of_finishShift rfl rfl (unprefixed_next h).2
  -- Compares
  case cmp_rkc | cmpc_rkc => cases h; exact .compare _ rfl
  case cmp_rrc | cmpc_rrc => cases (unprefixed_next h).2; exact .compare _ rfl
  -- The stack pointer
  case add_kq => cases h; exact .stackPointer _ rfl
  case mov_rq => cases (unprefixed_next h).2; exact .stackPointer _ rfl
  -- Control flow
  case br_nt | br_t | jmp_k => cases h; exact .jump _ rfl
  case jmp_r => cases (unprefixed_next h).2; exact .jump _ rfl
  case call => exact of_callTo rfl rfl rfl h
  case call_r => exact of_callTo rfl rfl rfl (unprefixed_next h).2
  case ret => exact of_ret h
  case reti => exact of_reti h
  -- System
  case dint | eint => cases (unprefixed_next h).2; exact .enable _ rfl
  case halt => cases (unprefixed_next h).2; exact .halt rfl
  case pfix_k => exact of_pfixK h
  -- Slots without an instruction fault
  case reserved_I2_11010 | reserved_R3_10110 | reserved_R3_10111 | reserved_R3_11001 | reserved_R3_11010
      | reserved_R3_11011 | reserved_R2_00110 | reserved_R2_01011 | reserved_R2_01100 | reserved_R2_01111
      | reserved_R2_10100 | reserved_R2_10101 | reserved_R2_11101 | reserved_R2_11110 | reserved_R2_11111
      | set_rr | mov_sr | mov_rs =>
    cases h

/-! ### The register file (R21, R100) -/

/-- Every effect leaves the register file as it was, save for one write to the instruction's Rd. -/
theorem State.Effect.regs {i : Instr} {s t : State} (h : s.Effect i t) :
    t.regs = s.regs ∨ ∃ rd v, i.dest = some rd ∧ t.regs = s.regs.set rd v := by
  cases h with
  | register v f n hdest => exact .inr ⟨_, v, hdest, rfl⟩
  | store | stackPointer | compare | enable | jump | call | ret | setPrefix | halt => exact .inl rfl

/-- Settles O52: an effect writes no register but Rd, and a write to Rd leaves every other register alone. -/
theorem onlyTheDestinationRegisterChanges : Obligations.OnlyTheDestinationRegisterChanges := by
  intro i s t r h hne
  rcases (exec_effect h).regs with hregs | ⟨rd, v, hdest, hregs⟩
  · exact congrArg (·.get r) hregs
  · have hr : r ≠ rd := fun e => hne (e ▸ hdest)
    calc t.x r = (s.setX rd v).x r := congrArg (·.get r) hregs
      _ = s.x r := State.x_setX_ne s v hr

end Sys2Proof.Machine
end

section
/-! The NOP: its word selects the row of `mov_rr` and no other (R83, R84), and a move of a register to itself changes
nothing but the pc (R186). -/

namespace Sys2Proof

/-! ### The word 0x0000 -/

/-- The encoder puts every instruction into its own row of the opcode table (R81, R90 to R95). -/
theorem encode_and_mask (i : Instr) : encode i &&& i.mask = i.pattern := by
  cases i
  case lea_mr | movw_mr | movzb_mr | movsb_mr | movw_rm | movb_rm | reserved_I2_11010 | and_kr | cmp_rkc | cmpc_rkc =>
    exact formI2_mask _ _ _ _
  case call | pfix_k => exact formP_mask _ _
  case mov_kr | add_kr | sub_kr | movw_ar | movsb_ar | movw_ra | movb_ra | lea_qr | movw_qr | movsb_qr | movw_rq
      | movb_rq =>
    exact formI1_mask _ _ _
  case cmp_rrc | cmpc_rrc | sub_rrr | subc_rrr | or_rrr | and_rrr | xor_rrr | adc_rrr | add_rrr | movw_nr | movzb_nr
      | movsb_nr | movw_rn | movb_rn | reserved_R3_10110 | reserved_R3_10111 | sel_rrr | reserved_R3_11001
      | reserved_R3_11010 | reserved_R3_11011 =>
    exact formR3_mask _ _ _ _
  case br_nt | br_t | jmp_k | add_kq => exact formJ_mask _ _
  case mov_rr | mov_rq | zext_rr | sext_rr | bswap_rr | sextw_rr | reserved_R2_00110 | movw_pr | lsr_rr | lsrc_rr
      | asr_rr | reserved_R2_01011 | reserved_R2_01100 | neg_rr | not_rr | reserved_R2_01111 | jmp_r | call_r | set_1r
      | set_rr | reserved_R2_10100 | reserved_R2_10101 | mov_sr | mov_rs | ret | reti | dint | eint | halt
      | reserved_R2_11101 | reserved_R2_11110 | reserved_R2_11111 =>
    exact formR2_mask _ _ _

/-- The only row of the opcode table whose match is zero is that of `mov_rr` (R95). -/
theorem eq_mov_rr_of_pattern_eq_zero {i : Instr} (h : i.pattern = 0x0000#16) : ∃ rs rd, i = .mov_rr rs rd := by
  cases i
  case mov_rr rs rd => exact ⟨rs, rd, rfl⟩
  all_goals simp [Instr.pattern] at h

theorem decode_zero : decode 0x0000#16 = some (.mov_rr .r0 .r0) := by decide

theorem encode_mov_rr_r0_r0 : encode (.mov_rr .r0 .r0) = 0x0000#16 := by decide

/-- The operand fields of a `mov_rr` read back from its word, so the zero word names R0 twice. -/
theorem eq_r0_of_encode_mov_rr {rs rd : Reg} (h : encode (.mov_rr rs rd) = 0x0000#16) : rs = .r0 ∧ rd = .r0 := by
  have hrs : rsOf (encode (.mov_rr rs rd)) = rs := (formR2_rs _ _ _).trans rs.ofBits_bits
  have hrd : rdOf (encode (.mov_rr rs rd)) = rd := (formR2_rd _ _ _).trans rd.ofBits_bits
  rw [h] at hrs hrd
  exact ⟨hrs.symm.trans (by decide), hrd.symm.trans (by decide)⟩

theorem encode_eq_zero_iff (i : Instr) : encode i = 0x0000#16 ↔ i = .mov_rr .r0 .r0 := by
  constructor
  · intro h
    have hpattern : i.pattern = 0x0000#16 := by rw [← encode_and_mask, h, BitVec.zero_and]
    obtain ⟨rs, rd, rfl⟩ := eq_mov_rr_of_pattern_eq_zero hpattern
    obtain ⟨rfl, rfl⟩ := eq_r0_of_encode_mov_rr h
    rfl
  · rintro rfl
    exact encode_mov_rr_r0_r0

/-- Settles O60: the row by `eq_mov_rr_of_pattern_eq_zero`, the operands by `eq_r0_of_encode_mov_rr`. -/
theorem nopIsTheAllZeroWord : Obligations.NopIsTheAllZeroWord :=
  ⟨decode_zero, rfl, rfl, encode_eq_zero_iff⟩

end Sys2Proof

namespace Sys2Proof.Machine

/-! ### A move of a register to itself -/

@[simp] theorem Regs.set_get_self (x : Regs) (r : Reg) : x.set r (x.get r) = x := by
  cases r <;> rfl

@[simp] theorem State.setX_x_self (s : State) (r : Reg) : s.setX r (s.x r) = s :=
  congrArg (fun x => { s with regs := x }) (s.regs.set_get_self r)

/-- With no prefix pending, an instruction's end advances the pc and does nothing else (R26). -/
theorem State.retire_of_pfx_none {s : State} (h : s.pfx = none) : s.retire = { s with pc := s.nextPc } := by
  simp only [State.retire, State.jumpTo, h]

/-- `mov r, r` is a NOP for every register, not for R0 alone (R186; D13). -/
theorem exec_mov_rr_self {s : State} (r : Reg) (h : s.pfx = none) :
    exec (.mov_rr r r) s = .next { s with pc := s.nextPc } := by
  calc exec (.mov_rr r r) s = s.finish r (s.x r) := State.unprefixed_none h
    _ = .next s.retire := by rw [State.finish, State.setX_x_self]
    _ = .next { s with pc := s.nextPc } := by rw [State.retire_of_pfx_none h]

/-- Settles O5: the two directions of the word, and `exec_mov_rr_self` for R0. -/
theorem nopIsMovR0R0 : Obligations.NopIsMovR0R0 :=
  ⟨decode_zero, encode_mov_rr_r0_r0, rfl, fun _ => exec_mov_rr_self .r0⟩

end Sys2Proof.Machine
end

section
/-! The prefix (40_prefix.md): what `pfix_k` does, the operand of the instruction that follows it, and how long the
pending prefix lives (R120, R121, R124; D15, D17). -/

namespace Sys2Proof

/-- Every word of opcode 11111 in format P is a `pfix_k` of its own low eleven bits (R120). -/
theorem decode_formP_11111 (p : BitVec 11) : decode (formP 0b11111#5 p) = some (.pfix_k p) := by
  calc decode (formP 0b11111#5 p) = decodeP (formP 0b11111#5 p) := decode_formP _ p (by decide)
    _ = some (.pfix_k (imm11Of (formP 0b11111#5 p))) := by rw [decodeP, formP_op]; rfl
    _ = some (.pfix_k p) := by rw [formP_k]

end Sys2Proof

namespace Sys2Proof.Machine

section Prefix

variable {s t : State} {p : BitVec 11} {n : Nat}

/-! ### The prefix instruction (R120, R124) -/

theorem execPfixK_of_pfx_none (p : BitVec 11) (h : s.pfx = none) :
    execPfixK p s = .next { s with pfx := some p, pc := s.nextPc } := by
  simp only [execPfixK, h]

theorem execPfixK_of_pfx_some {q : BitVec 11} (p : BitVec 11) (h : s.pfx = some q) :
    execPfixK p s = .fault (.prefixMisuse s.word) := by
  simp only [execPfixK, h]

theorem State.nextPc_of_wordAddressed (h : s.cfg.pmWordAddressed = true) : s.nextPc = s.pc + 1#16 := by
  rw [State.nextPc, State.pcStep, if_pos h]

/-! ### The effective immediate (R121) -/

theorem State.immZ_of_pfx_some (raw : BitVec n) (h : s.pfx = some p) : s.immZ raw = prefixed p raw := by
  simp only [State.immZ, h]

theorem State.immS_of_pfx_some (raw : BitVec n) (h : s.pfx = some p) : s.immS raw = prefixed p raw := by
  simp only [State.immS, h]

theorem State.immZ_of_pfx_none (raw : BitVec n) (h : s.pfx = none) : s.immZ raw = raw.zeroExtend 16 := by
  simp only [State.immZ, h]

theorem State.immS_of_pfx_none (raw : BitVec n) (h : s.pfx = none) : s.immS raw = raw.signExtend 16 := by
  simp only [State.immS, h]

/-- Eleven bits moved up by five stay inside a word, so the shift loses none of them. -/
theorem zeroExtend_shiftLeft_five_toNat (p : BitVec 11) : (p.zeroExtend 16 <<< 5).toNat = p.toNat <<< 5 := by
  have hp := p.isLt
  simp only [BitVec.toNat_shiftLeft, BitVec.toNat_setWidth, Nat.shiftLeft_eq]
  omega

/-- The low five bits of a field; the bits above them are ignored (D15). -/
theorem extract_five_zeroExtend_toNat (raw : BitVec n) :
    ((raw.extractLsb' 0 5).zeroExtend 16).toNat = raw.toNat % 32 := by
  simp only [BitVec.toNat_setWidth, BitVec.extractLsb'_toNat, Nat.shiftRight_zero]
  omega

/-- The two parts of a prefixed operand share no bit, so their union is their sum. -/
theorem prefixed_toNat (p : BitVec 11) (raw : BitVec n) : (prefixed p raw).toNat = 32 * p.toNat + raw.toNat % 32 := by
  have hlow : raw.toNat % 32 < 2 ^ 5 := Nat.mod_lt _ (by decide)
  calc (prefixed p raw).toNat = p.toNat <<< 5 ||| raw.toNat % 32 := by
        rw [prefixed, BitVec.toNat_or, zeroExtend_shiftLeft_five_toNat, extract_five_zeroExtend_toNat]
    _ = p.toNat <<< 5 + raw.toNat % 32 := (Nat.shiftLeft_add_eq_or_of_lt hlow _).symm
    _ = 32 * p.toNat + raw.toNat % 32 := by rw [Nat.shiftLeft_eq]; omega

/-! ### The lifetime of the prefix (D17) -/

/-- Every effect but that of `pfix_k` ends the pending prefix. -/
theorem State.Effect.pfx {i : Instr} (h : s.Effect i t) : (∃ p, i = .pfix_k p) ∨ t.pfx = none := by
  cases h with
  | setPrefix k hi => exact .inl ⟨k, hi⟩
  | register | store | stackPointer | compare | enable | jump | call | ret | halt => exact .inr rfl

end Prefix

/-! ### The obligations -/

/-- Settles O16: the prefixed operand by `prefixed_toNat`, the plain one by its extension, the lifetime by `exec_effect`. -/
theorem effectiveImmediate : Obligations.EffectiveImmediate := by
  refine ⟨fun s p n raw _ h => ?prefixed, fun s n raw hn h => ?plain, fun i s t h => (exec_effect h).pfx⟩
  case prefixed =>
    rw [State.immZ_of_pfx_some raw h, State.immS_of_pfx_some raw h]
    exact ⟨prefixed_toNat p raw, prefixed_toNat p raw⟩
  case plain =>
    rw [State.immZ_of_pfx_none raw h, State.immS_of_pfx_none raw h]
    exact ⟨BitVec.toNat_setWidth_of_le hn, BitVec.toInt_signExtend_of_le hn⟩

/-- Settles O15: the word by `decode_formP_11111`, then one lemma for each case of the pending prefix. -/
theorem pfixSetsThePendingPrefix : Obligations.PfixSetsThePendingPrefix := fun _ p =>
  ⟨decode_formP_11111 p, execPfixK_of_pfx_none p, State.nextPc_of_wordAddressed, fun _ => execPfixK_of_pfx_some p⟩

end Sys2Proof.Machine
end

section
/-! Addition (41_arithmetic_logic.md): the words of the two forms of `add` (R130, R131), what the adder without carry-in
writes (R10, R11), and the operands each form gives it. -/

namespace Sys2Proof

/-! ### The words -/

/-- Every word of opcode 01001 in format I1 adds its own eight bits to its own Rd (R130). -/
theorem decode_formI1_01001 (k : BitVec 8) (rd : Reg) : decode (formI1 0b01001#5 k rd.bits) = some (.add_kr rd k) := by
  rw [decode_formI1 _ _ _ (by decide) (by decide), decodeI1, formI1_op, formI1_k, formI1_rd, Reg.ofBits_bits]
  rfl

/-- Every word of opcode 10000 in format R3 adds the registers of its own three fields (R131). -/
theorem decode_formR3_10000 (rs rn rd : Reg) :
    decode (formR3 0b10000#5 rn.bits rs.bits rd.bits) = some (.add_rrr rs rn rd) := by
  rw [decode_formR3 _ _ _ _ (by decide) (by decide), decodeR3, formR3_op, formR3_rs, formR3_rn, formR3_rd]
  simp only [Reg.ofBits_bits]
  rfl

end Sys2Proof

namespace Sys2Proof.Machine

/-! ### The sum without carry-in -/

theorem add17_false_r (a b : Word) : (add17 a b false).r = a + b :=
  (add17_r a b false).trans (BitVec.add_zero (a + b))

theorem add17_false_c (a b : Word) : (add17 a b false).c = decide (65536 ≤ a.toNat + b.toNat) :=
  add17_c a b false

theorem add17_false_z (a b : Word) : (add17 a b false).z = decide (a + b = 0#16) := by
  rw [add17_z, add17_false_r, beq_zero_eq_decide]

theorem State.addition_eq (s : State) (rd : Reg) (a b : Word) :
    s.addition rd a b = .next { s with
      regs := s.regs.set rd (a + b), pc := s.nextPc, pfx := none
      sr := { i := s.sr.i, c := decide (65536 ≤ a.toNat + b.toNat)
              z := decide (a + b = 0#16), t := decide (a + b = 0#16) } } := by
  rw [State.addition, State.finishCZT_eq, add17_false_r, add17_false_c, add17_false_z]

/-! ### The two forms -/

theorem exec_add_rrr_eq_addition {s : State} (rs rn rd : Reg) (h : s.pfx = none) :
    exec (.add_rrr rs rn rd) s = s.addition rd (s.x rs) (s.x rn) :=
  State.unprefixed_none h

/-- Settles O18: both forms are `State.addition` of their own operands, and `State.addition_eq` says what it writes. -/
theorem addSetsCarryAndZero : Obligations.AddSetsCarryAndZero := by
  refine fun s => ⟨fun rd k => ?immediate, fun rs rn rd h => ?registers, fun k rs rn rd => ⟨?wordKr, ?wordRrr⟩⟩
  case immediate => exact State.addition_eq s rd (s.x rd) (s.immZ k)
  case registers => rw [exec_add_rrr_eq_addition rs rn rd h, State.addition_eq, h]
  case wordKr => exact decode_formI1_01001 k rd
  -- The seven leading bits are the 00 of format R3 and the opcode (R81).
  case wordRrr => exact decode_formR3_10000 rs rn rd

end Sys2Proof.Machine
end

section
/-! Words that read back: decoding inverts the encoder in every format, so the word of an instruction is known from the
encoder alone (R81, R85, R90 to R95). -/

namespace Sys2Proof

/-- The opcode leads the decoder to the format and the row of the instruction, and the fields read back as the encoder
put them in. -/
theorem decode_encode (i : Instr) : decode (encode i) = some i := by
  cases i
  case lea_mr | movw_mr | movzb_mr | movsb_mr | movw_rm | movb_rm | reserved_I2_11010 | and_kr =>
    rw [encode, decode_formI2 _ _ _ _ (by decide) (by decide), decodeI2, formI2_op, formI2_k, formI2_rs, formI2_rd]
    simp
  case cmp_rkc | cmpc_rkc =>
    rw [encode, decode_formI2 _ _ _ _ (by decide) (by decide), decodeI2, formI2_op, formI2_k, formI2_rs, formI2_cc]
    simp
  case call | pfix_k =>
    rw [encode, decode_formP _ _ (by decide), decodeP, formP_op, formP_k]
    rfl
  case mov_kr | add_kr | sub_kr | movw_ar | movsb_ar | movw_ra | movb_ra | lea_qr | movw_qr | movsb_qr | movw_rq
      | movb_rq =>
    rw [encode, decode_formI1 _ _ _ (by decide) (by decide), decodeI1, formI1_op, formI1_k, formI1_rd]
    simp
  case cmp_rrc | cmpc_rrc =>
    rw [encode, decode_formR3 _ _ _ _ (by decide) (by decide), decodeR3, formR3_op, formR3_rn, formR3_rs, formR3_cc]
    simp
  case sub_rrr | subc_rrr | or_rrr | and_rrr | xor_rrr | adc_rrr | add_rrr | movw_nr | movzb_nr | movsb_nr | movw_rn
      | movb_rn | reserved_R3_10110 | reserved_R3_10111 | sel_rrr | reserved_R3_11001 | reserved_R3_11010
      | reserved_R3_11011 =>
    rw [encode, decode_formR3 _ _ _ _ (by decide) (by decide), decodeR3, formR3_op, formR3_rn, formR3_rs, formR3_rd]
    simp
  case br_nt | br_t | jmp_k | add_kq =>
    rw [encode, decode_formJ _ _ (by decide), decodeJ, formJ_op, formJ_k]
    rfl
  case mov_rr | mov_rq | zext_rr | sext_rr | bswap_rr | sextw_rr | reserved_R2_00110 | movw_pr | lsr_rr | lsrc_rr
      | asr_rr | reserved_R2_01011 | reserved_R2_01100 | neg_rr | not_rr | reserved_R2_01111 | jmp_r | call_r | set_1r
      | set_rr | reserved_R2_10100 | reserved_R2_10101 | mov_sr | mov_rs | ret | reti | dint | eint | halt
      | reserved_R2_11101 | reserved_R2_11110 | reserved_R2_11111 =>
    rw [encode, decode_formR2, decodeR2, formR2_op, formR2_rs, formR2_rd]
    simp

end Sys2Proof
end

section
/-! Byte loads and stores (44_memory_access.md): every addressing form is one operation at its effective address (R200),
and at a backed address, odd or even, the operation goes through (R52, R53, R59). -/

namespace Sys2Proof.Machine

/-! ### The addressing forms of a byte access (R124, R200) -/

/-- In `s` the instruction loads the byte at `ea` into `rd` with zeros above it, in one of its two addressing forms; the
register form takes no prefix (R202, R215). -/
def State.LoadsZeroByte (s : State) (i : Instr) (rd : Reg) (ea : Word) : Prop :=
  (∃ rs k, i = .movzb_mr rs k rd ∧ ea = s.x rs + s.immZ k) ∨
    (∃ rs rn, i = .movzb_nr rs rn rd ∧ ea = s.x rs + s.x rn ∧ s.pfx = none)

/-- In `s` the instruction loads the byte at `ea` into `rd` with its sign above it, in one of the four addressing forms
(R203, R207, R211, R216). -/
def State.LoadsSignByte (s : State) (i : Instr) (rd : Reg) (ea : Word) : Prop :=
  (∃ rs k, i = .movsb_mr rs k rd ∧ ea = s.x rs + s.immZ k) ∨ (∃ k, i = .movsb_ar k rd ∧ ea = s.immZ k) ∨
    (∃ k, i = .movsb_qr k rd ∧ ea = s.sp + s.immZ k) ∨
    (∃ rs rn, i = .movsb_nr rs rn rd ∧ ea = s.x rs + s.x rn ∧ s.pfx = none)

/-- In `s` the instruction stores the low byte of `rd` at `ea`, in one of the four addressing forms (R205, R209, R213,
R218). -/
def State.StoresByte (s : State) (i : Instr) (rd : Reg) (ea : Word) : Prop :=
  (∃ rs k, i = .movb_rm rd rs k ∧ ea = s.x rs + s.immZ k) ∨ (∃ k, i = .movb_ra rd k ∧ ea = s.immZ k) ∨
    (∃ k, i = .movb_rq rd k ∧ ea = s.sp + s.immZ k) ∨
    (∃ rs rn, i = .movb_rn rd rs rn ∧ ea = s.x rs + s.x rn ∧ s.pfx = none)

section ByteAccess

variable {s : State} {i : Instr} {rd : Reg} {ea : Word}

theorem State.LoadsZeroByte.exec_eq (h : s.LoadsZeroByte i rd ea) : exec i s = s.loadZeroByte rd ea := by
  rcases h with ⟨rs, k, rfl, rfl⟩ | ⟨rs, rn, rfl, rfl, hp⟩
  · rfl
  · exact State.unprefixed_none hp

theorem State.LoadsSignByte.exec_eq (h : s.LoadsSignByte i rd ea) : exec i s = s.loadSignByte rd ea := by
  rcases h with ⟨rs, k, rfl, rfl⟩ | ⟨k, rfl, rfl⟩ | ⟨k, rfl, rfl⟩ | ⟨rs, rn, rfl, rfl, hp⟩
  · rfl
  · rfl
  · rfl
  · exact State.unprefixed_none hp

theorem State.StoresByte.exec_eq (h : s.StoresByte i rd ea) : exec i s = s.storeByte rd ea := by
  rcases h with ⟨rs, k, rfl, rfl⟩ | ⟨k, rfl, rfl⟩ | ⟨k, rfl, rfl⟩ | ⟨rs, rn, rfl, rfl, hp⟩
  · rfl
  · rfl
  · rfl
  · exact State.unprefixed_none hp

/-! ### The access at a backed address (R52, R53, R59) -/

theorem State.loadZeroByte_of_valid (h : s.dmemValid ea = true) :
    s.loadZeroByte rd ea = .next { s with
      regs := s.regs.set rd ((s.byteAt ea).zeroExtend 16), pc := s.nextPc, pfx := none } := by
  simp only [State.loadZeroByte, State.readByte_valid h, State.finish_eq]

theorem State.loadSignByte_of_valid (h : s.dmemValid ea = true) :
    s.loadSignByte rd ea = .next { s with
      regs := s.regs.set rd ((s.byteAt ea).signExtend 16), pc := s.nextPc, pfx := none } := by
  simp only [State.loadSignByte, State.readByte_valid h, State.finish_eq]

theorem State.storeByte_of_valid (h : s.dmemValid ea = true) :
    s.storeByte rd ea = .next (s.putByte ea ((s.x rd).extractLsb' 0 8)).retire := by
  simp only [State.storeByte, State.writeByte_valid h]

/-! ### The stored byte -/

theorem lowByte_toNat (v : Word) : (v.extractLsb' 0 8).toNat = v.toNat % 256 := by
  rw [BitVec.extractLsb'_toNat, Nat.shiftRight_zero]

/-- A stored byte reads back at its own address when the instruction has ended. -/
theorem State.byteAt_retire_putByte_self (s : State) (a : Word) (v : Byte) :
    (s.putByte a v).retire.byteAt a = v := by
  rw [State.retire_byteAt, State.byteAt_putByte, if_pos rfl]

/-- A byte store leaves every other byte alone. -/
theorem State.byteAt_retire_putByte_ne (s : State) {a b : Word} (v : Byte) (h : b ≠ a) :
    (s.putByte a v).retire.byteAt b = s.byteAt b := by
  rw [State.retire_byteAt, State.byteAt_putByte, if_neg h]

end ByteAccess

/-! ### The obligations -/

/-- Settles O36: the form by `exec_eq`, the access by `loadZeroByte_of_valid` and `loadSignByte_of_valid`, the words by
`decode_encode`. -/
theorem byteLoadsExtend : Obligations.ByteLoadsExtend := by
  refine fun s i ea rd hv => ⟨fun (h : s.LoadsZeroByte i rd ea) => ?zero, fun (h : s.LoadsSignByte i rd ea) => ?sign,
    fun k5 k8 rs rn => ?words⟩
  case zero =>
    exact ⟨_, BitVec.toNat_setWidth_of_le (by decide), h.exec_eq.trans (State.loadZeroByte_of_valid hv)⟩
  case sign =>
    exact ⟨_, BitVec.toInt_signExtend_of_le (by decide), h.exec_eq.trans (State.loadSignByte_of_valid hv)⟩
  case words =>
    exact ⟨decode_encode (.movzb_mr rs k5 rd), decode_encode (.movsb_mr rs k5 rd), decode_encode (.movsb_ar k8 rd),
      decode_encode (.movsb_qr k8 rd), decode_encode (.movzb_nr rs rn rd), decode_encode (.movsb_nr rs rn rd)⟩

/-- Settles O38: the next state is `storeByte_of_valid`'s, and its bytes are those of one byte store. -/
theorem byteStoresWriteTheLowByte : Obligations.ByteStoresWriteTheLowByte := by
  intro s i ea rd (h : s.StoresByte i rd ea) hv
  refine ⟨_, h.exec_eq.trans (State.storeByte_of_valid hv), rfl, ?lowByte, fun a => s.byteAt_retire_putByte_ne _,
    fun k5 k8 rs rn => ?words⟩
  case lowByte => rw [State.byteAt_retire_putByte_self, lowByte_toNat]
  case words =>
    exact ⟨decode_encode (.movb_rm rd rs k5), decode_encode (.movb_ra rd k8), decode_encode (.movb_rq rd k8),
      decode_encode (.movb_rn rd rs rn)⟩

end Sys2Proof.Machine
end

section
/-! Word accesses that fault, and calls that return (20_memory.md, 45_branch.md, 60_exceptions.md). Every word access goes
through `State.wordBase`: where that answers an error, the instruction or the interrupt entry faults with it (R52, R56, R58);
where it answers a base, a word stored there by a call is what `ret` loads from the same address (R244 to R248). -/

namespace Sys2Proof.Machine

section WordAccess

variable {s t : State} {i : Instr} {rd : Reg} {a c ea v vector : Word} {f : Fault}

/-! ### The operations at an address that `wordBase` rejects (R52, R58) -/

theorem State.loadWord_of_error (h : s.wordBase a = .error f) : s.loadWord rd a = .fault f := by
  simp only [State.loadWord, State.readWord_of_error h]

theorem State.storeWord_of_error (h : s.wordBase a = .error f) : s.storeWord rd a = .fault f := by
  simp only [State.storeWord, State.writeWord_of_error h]

theorem State.callTo_of_error (h : s.wordBase (s.sp - 2#16) = .error f) : s.callTo a = .fault f := by
  simp only [State.callTo, State.push_of_error h]

theorem State.pop_of_error (h : s.wordBase s.sp = .error f) : s.pop = .error f := by
  simp only [State.pop, State.readWord_of_error h]

theorem State.pop_of_base (h : s.wordBase s.sp = .ok c) :
    s.pop = .ok (joinBytes s.cfg.byteOrder (s.byteAt c) (s.byteAt (c + 1#16)), { s with sp := s.sp + 2#16 }) := by
  simp only [State.pop, State.readWord_of_base h]

theorem State.returnTo_of_error (h : s.wordBase s.sp = .error f) : s.returnTo = .fault f := by
  simp only [State.returnTo, State.pop_of_error h]

theorem State.leaveInterrupt_of_error (h : s.wordBase s.sp = .error f) : s.leaveInterrupt = .fault f := by
  simp only [State.leaveInterrupt, State.pop_of_error h]

/-- Where the first pop is possible and the second is not, the return faults as the second (R280). -/
theorem State.leaveInterrupt_of_second_error (hc : s.wordBase s.sp = .ok c)
    (hd : s.wordBase (s.sp + 2#16) = .error f) : s.leaveInterrupt = .fault f := by
  have hpop : State.pop { s with sp := s.sp + 2#16 } = .error f := State.pop_of_error hd
  simp only [State.leaveInterrupt, State.pop_of_base hc, hpop]

/-! ### The instructions and interrupt entry at such an address -/

theorem exec_ret_of_pfx_none (h : s.pfx = none) : exec .ret s = s.returnTo := State.unprefixed_none h

/-- `reti` under IRQ_MODEL = stack is the return of R280. -/
theorem exec_reti_of_stack (hp : s.pfx = none) (hm : s.cfg.irqModel = .stack vector) :
    exec .reti s = s.leaveInterrupt := by
  calc exec .reti s = _ := State.unprefixed_none hp
    _ = s.leaveInterrupt := by simp only [hm]

/-- An instruction whose first word access is rejected faults as that access. -/
theorem State.AccessesWord.exec_of_error (h : s.AccessesWord i ea) (he : s.wordBase ea = .error f) :
    exec i s = .fault f := by
  rcases h with ⟨rd, hload | hstore⟩ | ⟨k, rfl, rfl⟩ | ⟨r, rfl, rfl, hp⟩ | ⟨rfl, rfl, hp⟩ | ⟨vector, rfl, hm, rfl, hp⟩
  · exact hload.exec_eq.trans (State.loadWord_of_error he)
  · exact hstore.exec_eq.trans (State.storeWord_of_error he)
  · exact State.callTo_of_error he
  · exact (State.unprefixed_none hp).trans (State.callTo_of_error he)
  · exact (exec_ret_of_pfx_none hp).trans (State.returnTo_of_error he)
  · exact (exec_reti_of_stack hp hm).trans (State.leaveInterrupt_of_error he)

/-- Interrupt entry faults as its first push (R279). -/
theorem State.TakesRequest.step_of_error (h : s.TakesRequest vector) (he : s.wordBase (s.sp - 2#16) = .error f) :
    step s = .fault f :=
  h.step_eq.trans (State.enterInterrupt_of_error he)

/-- Interrupt entry faults as its second push, where the first is possible (R279). -/
theorem State.TakesRequest.step_of_second_error (h : s.TakesRequest vector) (hc : s.wordBase (s.sp - 2#16) = .ok c)
    (he : s.wordBase (s.sp - 4#16) = .error f) : step s = .fault f := by
  have hsp : s.sp - 2#16 - 2#16 = s.sp - 4#16 := by bv_omega
  exact h.step_eq.trans (State.enterInterrupt_of_second_error hc (hsp ▸ he))

/-- With the default MISALIGNED_WORD an odd address is rejected, whatever backs it (R56, R272). -/
theorem State.wordBase_of_odd (hc : s.cfg.misalignedWord = .fault) (ho : a.toNat % 2 = 1) :
    s.wordBase a = .error (.misalignedWord a) :=
  State.wordBase_odd (by rw [bit0_eq, decide_eq_true ho]) hc

/-! ### A call and its return (R244 to R248) -/

/-- The word stored at `c` reads back from `c`, in either byte order (R51, R53). -/
theorem State.joinBytes_putWord (s : State) (c v : Word) :
    joinBytes s.cfg.byteOrder ((s.putWord c v).byteAt c) ((s.putWord c v).byteAt (c + 1#16)) = v := by
  have hne : c ≠ c + 1#16 := by bv_omega
  rw [State.byteAt_putWord, State.byteAt_putWord, if_neg hne, if_pos rfl, if_pos rfl, joinBytes_first_second]

/-- Both calls are one operation at their target (R244, R245). -/
theorem exec_call_next (hi : (∃ k, i = .call k) ∨ ∃ rd, i = .call_r rd) (h : exec i s = .next t) :
    ∃ target, s.callTo target = .next t := by
  rcases hi with ⟨k, rfl⟩ | ⟨rd, rfl⟩
  · exact ⟨s.immZ k, h⟩
  · exact ⟨s.x rd, (State.unprefixed_next h).2⟩

/-- `ret` goes to the word that the two bytes at its stack slot make (R246). -/
theorem exec_ret_of_base (hp : s.pfx = none) (h : s.wordBase s.sp = .ok c)
    (hv : joinBytes s.cfg.byteOrder (s.byteAt c) (s.byteAt (c + 1#16)) = v) :
    exec .ret s = .next { s with sp := s.sp + 2#16, pc := v } := by
  rw [exec_ret_of_pfx_none hp, State.returnTo_of_base h, hv, hp]

end WordAccess

/-! ### The obligations -/

/-- Settles O40: `wordBase` rejects the odd address; SP - 2 is odd where SP is. -/
theorem oddWordAccessFaults : Obligations.OddWordAccessFaults := by
  refine fun s hc => ⟨fun i ea ho h => h.exec_of_error (State.wordBase_of_odd hc ho), fun vector h ho => ?entry⟩
  case entry =>
    have hodd : (s.sp - 2#16).toNat % 2 = 1 := by bv_omega
    exact h.step_of_error (State.wordBase_of_odd hc hodd)

/-- Settles O42: `FirstByte.unbacked` rejects the access that has no backing, `FirstByte.base` lets the one before it
through. -/
theorem unbackedWordAccessFaults : Obligations.UnbackedWordAccessFaults := by
  refine fun s => ⟨fun i ea b h hb hn => ?firstAccess, fun vector b c hp hm hb hv hc hn => ?secondPop,
    fun vector b h hb hn => ?firstPush, fun vector b c h hb hv hc hn => ?secondPush⟩
  case firstAccess => exact h.exec_of_error (hb.unbacked hn)
  case secondPop =>
    exact (exec_reti_of_stack hp hm).trans (State.leaveInterrupt_of_second_error (hb.base hv) (hc.unbacked hn))
  case firstPush => exact h.step_of_error (hb.unbacked hn)
  case secondPush => exact h.step_of_second_error (hb.base hv) (hc.unbacked hn)

/-- Settles O48: the call stores the return address at the base of SP - 2, `ret` reads the same base under the same
parameters, and the two bytes there make that address again. -/
theorem retReturnsToAfterTheCall : Obligations.RetReturnsToAfterTheCall := by
  intro s t u i c hi hcall hc hcfg hsp hp h0 h1
  obtain ⟨target, hcall⟩ := exec_call_next hi hcall
  obtain ⟨d, hd, rfl⟩ := State.callTo_next hcall
  obtain rfl : c = d := hc.eq_of_base hd
  have hbase : u.wordBase u.sp = .ok c := by rw [hsp, State.wordBase_congr hcfg]; exact hd
  have hword : joinBytes u.cfg.byteOrder (u.byteAt c) (u.byteAt (c + 1#16)) = s.nextPc := by
    rw [hcfg, h0, h1]
    exact s.joinBytes_putWord c s.nextPc
  have hback : u.sp + 2#16 = s.sp := by rw [hsp]; exact BitVec.sub_add_cancel s.sp 2#16
  rw [exec_ret_of_base hp hbase hword, hback]

end Sys2Proof.Machine
end

section
/-! A word placed where the step fetches (`State.withFetchWord`; log entries 31, 33): no request stands at the boundary, the
fetch answers the word, and the step executes the instruction that it decodes to (R55, R277). -/

namespace Sys2Proof.Machine

variable {s : State} {k : Nat} {w : Word} {i : Instr}

/-! ### What placing a word sets, and what it leaves for the fetch -/

@[simp] theorem State.withFetchWord_halted (s : State) (nbits w : Nat) : (s.withFetchWord nbits w).halted = false := rfl

@[simp] theorem State.withFetchWord_pc (s : State) (nbits w : Nat) : (s.withFetchWord nbits w).pc = s.pc := rfl

@[simp] theorem State.withFetchWord_codeIndex (s : State) (nbits w : Nat) (a : Word) :
    (s.withFetchWord nbits w).codeIndex a = s.codeIndex a := rfl

theorem State.withFetchWord_pmem (nbits n : Nat) (hk : s.codeIndex s.pc = some k) :
    (s.withFetchWord nbits n).pmem = Cells.write s.pmem k (BitVec.ofNat 16 (n % 2 ^ nbits)) := by
  simp only [State.withFetchWord, hk]

/-- The level sampled next is 0, whether levels are listed or the list is at its end (R276). -/
@[simp] theorem State.withFetchWord_irqNow (s : State) (nbits w : Nat) : (s.withFetchWord nbits w).irqNow = false := by
  unfold State.irqNow State.withFetchWord
  cases s.irq with
  | nil => rfl
  | cons level later => rfl

@[simp] theorem State.withFetchWord_accepts (s : State) (nbits w : Nat) : (s.withFetchWord nbits w).accepts = false := by
  simp only [State.accepts, State.withFetchWord_irqNow, Bool.false_and]

/-! ### The fetch and the step -/

theorem State.fetch_of_lookup (hk : s.codeIndex s.pc = some k) (hw : Cells.lookup s.pmem k = some w) :
    s.fetch = .word w := by
  simp only [State.fetch, hk, hw]

/-- The placed word is a whole instruction (R80), so the fetch answers it unchanged. -/
theorem State.fetch_withFetchWord (w : Word) (hk : s.codeIndex s.pc = some k) :
    (s.withFetchWord 16 w.toNat).fetch = .word w := by
  have hlookup : Cells.lookup (s.withFetchWord 16 w.toNat).pmem k = some w := by
    rw [State.withFetchWord_pmem 16 w.toNat hk, Cells.lookup_write_self, Nat.mod_eq_of_lt w.isLt, BitVec.ofNat_toNat,
      BitVec.setWidth_eq]
  exact State.fetch_of_lookup hk hlookup

/-- Where nothing comes before the instruction, the step is the execution of the fetched word (R55). -/
theorem step_of_fetch (hh : s.halted = false) (ha : s.accepts = false) (hf : s.fetch = .word w)
    (hd : decode w = some i) : step s = exec i s.sampled := by
  simp [step, hh, ha, hf, hd]

/-! ### The obligation -/

/-- Settles O9: the fetch answers the placed word, and `decode_encode` gives the instruction back. -/
theorem placedWordRunsNext : Obligations.PlacedWordRunsNext := fun s _ i hk =>
  step_of_fetch (s.withFetchWord_halted 16 _) (s.withFetchWord_accepts 16 _) (State.fetch_withFetchWord (encode i) hk)
    (decode_encode i)

end Sys2Proof.Machine
end

section
/-! The promises over all instructions (R23, R25, R34, R36, R58): each is read off `exec_effect`, which carries the spec's
lists of writers as its side conditions. Runs keep program memory and the parameters (R54, R68). -/

namespace Sys2Proof

/-- The writers of T hold the writers of C, and the compares (R29). -/
theorem Instr.writesC_of_writesT_eq_false {i : Instr} (h : i.writesT = false) : i.writesC = false := by
  cases i
  case cmp_rkc | cmpc_rkc | cmp_rrc | cmpc_rrc => cases h
  all_goals exact h

end Sys2Proof

namespace Sys2Proof.Machine

section Promises

variable {i : Instr} {s t u : State}

/-! ### What an effect leaves unchanged -/

/-- No effect but those on the stack pointer, the calls and the returns writes SP (R23). -/
theorem State.Effect.sp (h : s.Effect i t) (hi : i.writesSP = false) : t.sp = s.sp := by
  cases h with
  | stackPointer _ hsp | call _ _ _ _ hsp | ret _ _ _ hsp => exact absurd hsp (by simp [hi])
  | register | store | compare | enable | jump | setPrefix | halt => rfl

/-- No effect but that of `halt` writes the halted bit (R36). -/
theorem State.Effect.halted (h : s.Effect i t) (hi : i ≠ .halt) : t.halted = s.halted := by
  cases h with
  | halt hhalt => exact absurd hhalt hi
  | register | store | stackPointer | compare | enable | jump | call | ret | setPrefix => rfl

/-- No effect but the stores and the calls writes data memory (R58). -/
theorem State.Effect.mem (h : s.Effect i t) (hi : i.writesMem = false) : t.mem = s.mem := by
  cases h with
  | store _ hmem | call _ _ _ hmem => exact absurd hmem (by simp [hi])
  | register | stackPointer | compare | enable | jump | ret | setPrefix | halt => rfl

/-- Every effect but the jumps, the calls and the returns ends at the next word (R25, R26). -/
theorem State.Effect.pc (h : s.Effect i t) (hi : i.writesPC = false) : t.pc = s.nextPc := by
  cases h with
  | jump _ hpc | call _ _ _ _ _ hpc | ret _ _ _ _ hpc => exact absurd hpc (by simp [hi])
  | register | store | stackPointer | compare | enable | setPrefix | halt => rfl

/-! ### The flags (R34) -/

/-- No effect writes C or Z unless the instruction is listed for C, whose writers are those of Z (R30, R31). -/
theorem State.Effect.carry_zero (h : s.Effect i t) (hi : i.writesC = false) : t.sr.c = s.sr.c ∧ t.sr.z = s.sr.z := by
  cases h with
  | register _ _ _ _ _ hflags =>
    rcases hflags with rfl | hc
    · exact ⟨rfl, rfl⟩
    · exact absurd hc (by simp [hi])
  | ret _ _ _ _ _ hflags =>
    rcases hflags with rfl | rfl
    · exact ⟨rfl, rfl⟩
    · cases hi
  | store | stackPointer | compare | enable | jump | call | setPrefix | halt => exact ⟨rfl, rfl⟩

theorem State.Effect.condition (h : s.Effect i t) (hi : i.writesT = false) : t.sr.t = s.sr.t := by
  cases h with
  | register _ _ _ _ _ hflags =>
    rcases hflags with rfl | hc
    · rfl
    · exact absurd hc (by simp [Instr.writesC_of_writesT_eq_false hi])
  | compare _ ht => exact absurd ht (by simp [hi])
  | ret _ _ _ _ _ hflags =>
    rcases hflags with rfl | rfl
    · rfl
    · cases hi
  | store | stackPointer | enable | jump | call | setPrefix | halt => rfl

/-- A register write keeps I, so only `eint`, `dint` and `reti` are left (R28). -/
theorem State.Effect.interruptEnable (h : s.Effect i t) (hi : i.writesI = false) : t.sr.i = s.sr.i := by
  cases h with
  | register _ _ _ _ hkeep => exact hkeep
  | enable _ hI => exact absurd hI (by simp [hi])
  | ret _ _ _ _ _ hflags =>
    rcases hflags with rfl | rfl
    · rfl
    · cases hi
  | store | stackPointer | compare | jump | call | setPrefix | halt => rfl

/-! ### Runs (R54, R68) -/

/-- Interrupt entry pushes two words of data memory, and writes neither program memory nor a parameter (R279). -/
theorem State.takeInterrupt_keeps_program (h : s.takeInterrupt = .next t) : t.pmem = s.pmem ∧ t.cfg = s.cfg := by
  obtain ⟨_, -, he⟩ := State.takeInterrupt_next h
  obtain ⟨_, _, -, -, rfl⟩ := State.enterInterrupt_next he
  exact ⟨rfl, rfl⟩

theorem exec_keeps_program (h : exec i s = .next t) : t.pmem = s.pmem ∧ t.cfg = s.cfg := by
  obtain ⟨hcfg, hpmem, -⟩ := exec_memoryFrame i s t h
  exact ⟨hpmem, hcfg⟩

/-- A step is interrupt entry or an instruction, and both start from the sampled state (R277, R281). -/
theorem step_keeps_program (h : step s = .next t) : t.pmem = s.pmem ∧ t.cfg = s.cfg := by
  obtain ⟨-, ⟨-, hirq⟩ | ⟨-, _, _, -, -, hexec⟩⟩ := step_next h
  · exact State.takeInterrupt_keeps_program (s := s.sampled) hirq
  · exact exec_keeps_program (s := s.sampled) hexec

theorem Reaches.keeps_program (h : Reaches s t) : t.pmem = s.pmem ∧ t.cfg = s.cfg := by
  induction h with
  | refl => exact ⟨rfl, rfl⟩
  | step _ hstep ih =>
    obtain ⟨hpmem, hcfg⟩ := step_keeps_program hstep
    obtain ⟨ihpmem, ihcfg⟩ := ih
    exact ⟨hpmem.trans ihpmem, hcfg.trans ihcfg⟩

end Promises

/-! ### The obligations -/

/-- Settles O57, by induction on the run. -/
theorem runsKeepProgramMemory : Obligations.RunsKeepProgramMemory := fun _ _ h => h.keeps_program

/-- Settles O53: the two frames of an effect. -/
theorem onlyListedInstructionsChangeSP : Obligations.OnlyListedInstructionsChangeSP := fun _ _ _ h =>
  ⟨(exec_effect h).sp, (exec_effect h).halted⟩

/-- Settles O54: one frame of an effect for each flag; Z has the writers of C. -/
theorem flagsChangeOnlyAsTabled : Obligations.FlagsChangeOnlyAsTabled := fun _ _ _ h =>
  ⟨fun hi => ((exec_effect h).carry_zero hi).1, fun hi => ((exec_effect h).carry_zero hi).2, (exec_effect h).condition,
    (exec_effect h).interruptEnable⟩

/-- Settles O55. -/
theorem onlyStoresAndCallsChangeMemory : Obligations.OnlyStoresAndCallsChangeMemory := fun _ _ _ h =>
  (exec_effect h).mem

/-- Settles O56. -/
theorem pcAdvancesOutsideTheBranchFamily : Obligations.PcAdvancesOutsideTheBranchFamily := fun _ _ _ h =>
  (exec_effect h).pc

end Sys2Proof.Machine
end

section
/-! The decoder on all words: every word lies in exactly one row of the opcode table (R83, R85, R89), and the bits that a
format draws as `x` do not reach the decoder's answer (R97, R99; D15, D16). -/

namespace Sys2Proof

variable {w : Word} {i : Instr} {n : Nat}

/-! ### The masks of the table keep the leading bits (R90 to R95) -/

theorem and_mask_F800 (w : Word) : w &&& 0xF800#16 = w.extractLsb' 11 5 ++ 0#11 := by
  refine BitVec.eq_of_getLsbD_eq fun n hn => ?_
  simp only [BitVec.getLsbD_and, BitVec.getLsbD_append, BitVec.getLsbD_extractLsb']
  interval_cases n <;> simp

theorem and_mask_FE00 (w : Word) : w &&& 0xFE00#16 = w.extractLsb' 14 2 ++ w.extractLsb' 9 5 ++ 0#9 := by
  refine BitVec.eq_of_getLsbD_eq fun n hn => ?_
  simp only [BitVec.getLsbD_and, BitVec.getLsbD_append, BitVec.getLsbD_extractLsb']
  interval_cases n <;> simp

theorem and_mask_FF80 (w : Word) : w &&& 0xFF80#16 = w.extractLsb' 12 4 ++ w.extractLsb' 7 5 ++ 0#7 := by
  refine BitVec.eq_of_getLsbD_eq fun n hn => ?_
  simp only [BitVec.getLsbD_and, BitVec.getLsbD_append, BitVec.getLsbD_extractLsb']
  interval_cases n <;> simp

/-- Formats I2, P and I1: the opcode stands in bits 15:11. -/
theorem and_mask_of_opcode11 (hop : (w.extractLsb' 11 5).toNat = n) :
    w &&& 0xF800#16 = BitVec.ofNat 16 (2048 * n) := by
  have hword : ∀ op : BitVec 5, op ++ 0#11 = BitVec.ofNat 16 (2048 * op.toNat) := by decide
  rw [and_mask_F800, hword, hop]

/-- Formats R3 and J: the opcode stands in bits 13:9, below 00. -/
theorem and_mask_of_opcode9 (htop : w.extractLsb' 14 2 = 0b00#2) (hop : (w.extractLsb' 9 5).toNat = n) :
    w &&& 0xFE00#16 = BitVec.ofNat 16 (512 * n) := by
  have hword : ∀ op : BitVec 5, 0b00#2 ++ op ++ 0#9 = BitVec.ofNat 16 (512 * op.toNat) := by decide
  rw [and_mask_FE00, htop, hword, hop]

/-- Format R2: the opcode stands in bits 11:7, below 0000. -/
theorem and_mask_of_opcode7 (htop : w.extractLsb' 12 4 = 0b0000#4) (hop : (w.extractLsb' 7 5).toNat = n) :
    w &&& 0xFF80#16 = BitVec.ofNat 16 (128 * n) := by
  have hword : ∀ op : BitVec 5, 0b0000#4 ++ op ++ 0#7 = BitVec.ofNat 16 (128 * op.toNat) := by decide
  rw [and_mask_FF80, htop, hword, hop]

/-! ### Each format decodes into its own row (R85) -/

/-- The decoder's answer for `w` is an instruction of a row that `w` lies in. -/
def DecodesIntoRow (w : Word) (answer : Option Instr) : Prop :=
  ∃ i, answer = some i ∧ w &&& i.mask = i.pattern

theorem decodeI2_row (lo : 0b10100 ≤ (w.extractLsb' 11 5).toNat) (hi : (w.extractLsb' 11 5).toNat < 0b11110) :
    DecodesIntoRow w (decodeI2 w) := by
  unfold decodeI2
  interval_cases h : (w.extractLsb' 11 5).toNat <;> exact ⟨_, rfl, and_mask_of_opcode11 h⟩

theorem decodeP_row (lo : 0b11110 ≤ (w.extractLsb' 11 5).toNat) : DecodesIntoRow w (decodeP w) := by
  unfold decodeP
  have lt := (w.extractLsb' 11 5).isLt
  interval_cases h : (w.extractLsb' 11 5).toNat <;> exact ⟨_, rfl, and_mask_of_opcode11 h⟩

theorem decodeI1_row (lo : 0b01000 ≤ (w.extractLsb' 11 5).toNat) (hi : (w.extractLsb' 11 5).toNat < 0b10100) :
    DecodesIntoRow w (decodeI1 w) := by
  unfold decodeI1
  interval_cases h : (w.extractLsb' 11 5).toNat <;> exact ⟨_, rfl, and_mask_of_opcode11 h⟩

theorem decodeR3_row (htop : w.extractLsb' 14 2 = 0b00#2) (lo : 0b01000 ≤ (w.extractLsb' 9 5).toNat)
    (hi : (w.extractLsb' 9 5).toNat < 0b11100) : DecodesIntoRow w (decodeR3 w) := by
  unfold decodeR3
  interval_cases h : (w.extractLsb' 9 5).toNat <;> exact ⟨_, rfl, and_mask_of_opcode9 htop h⟩

theorem decodeJ_row (htop : w.extractLsb' 14 2 = 0b00#2) (lo : 0b11100 ≤ (w.extractLsb' 9 5).toNat) :
    DecodesIntoRow w (decodeJ w) := by
  unfold decodeJ
  have lt := (w.extractLsb' 9 5).isLt
  interval_cases h : (w.extractLsb' 9 5).toNat <;> exact ⟨_, rfl, and_mask_of_opcode9 htop h⟩

theorem decodeR2_row (htop : w.extractLsb' 12 4 = 0b0000#4) : DecodesIntoRow w (decodeR2 w) := by
  unfold decodeR2
  have lt := (w.extractLsb' 7 5).isLt
  interval_cases h : (w.extractLsb' 7 5).toNat <;> exact ⟨_, rfl, and_mask_of_opcode7 htop h⟩

theorem extract_toNat (w : Word) (k len : Nat) : (w.extractLsb' k len).toNat = w.toNat / 2 ^ k % 2 ^ len := by
  rw [BitVec.extractLsb'_toNat, Nat.shiftRight_eq_div_pow]

/-- The opcodes of the formats I1, I2 and P begin with the two bits that are not 00 (R85). -/
theorem opcode11_ge_of_top (h : w.extractLsb' 14 2 ≠ 0b00#2) : 0b01000 ≤ (w.extractLsb' 11 5).toNat := by
  have htop := extract_toNat w 14 2
  have hop := extract_toNat w 11 5
  have := w.isLt
  have : (w.extractLsb' 14 2).toNat ≠ 0 := fun e => h (BitVec.eq_of_toNat_eq e)
  omega

/-- Below the opcodes of R3 and J, the word begins with four zeros (R85). -/
theorem top4_of_opcode9_lt (htop : w.extractLsb' 14 2 = 0b00#2) (hop : (w.extractLsb' 9 5).toNat < 0b01000) :
    w.extractLsb' 12 4 = 0b0000#4 := by
  have h14 := extract_toNat w 14 2
  rw [htop, BitVec.toNat_ofNat] at h14
  rw [extract_toNat] at hop
  refine BitVec.eq_of_toNat_eq ?_
  rw [extract_toNat, BitVec.toNat_ofNat]
  omega

theorem decode_row (w : Word) : DecodesIntoRow w (decode w) := by
  unfold decode
  split
  case isTrue htop =>
    have hop := opcode11_ge_of_top htop
    split
    case isTrue hP => exact decodeP_row hP
    case isFalse hP =>
      split
      case isTrue hI2 => exact decodeI2_row hI2 (Nat.lt_of_not_le hP)
      case isFalse hI2 => exact decodeI1_row hop (Nat.lt_of_not_le hI2)
  case isFalse htop =>
    have htop := Decidable.of_not_not htop
    split
    case isTrue hJ => exact decodeJ_row htop hJ
    case isFalse hJ =>
      split
      case isTrue hR3 => exact decodeR3_row htop hR3 (Nat.lt_of_not_le hJ)
      case isFalse hR3 => exact decodeR2_row (top4_of_opcode9_lt htop (Nat.lt_of_not_le hR3))

/-! ### No word lies in two rows (R83) -/

/-- The mask of the rows that a word can lie in, by the leading bits that choose its format (R85). -/
def maskOf (w : Word) : Word :=
  if w &&& 0xC000#16 ≠ 0#16 then 0xF800 else if w &&& 0x3000#16 ≠ 0#16 then 0xFE00 else 0xFF80

theorem maskOf_pattern (i : Instr) : maskOf i.pattern = i.mask := by
  cases i <;> simp only [Instr.pattern, Instr.mask] <;> decide

/-- Every mask keeps the four leading bits, which choose the format. -/
theorem mask_and_top (i : Instr) : i.mask &&& 0xC000#16 = 0xC000#16 ∧ i.mask &&& 0x3000#16 = 0x3000#16 := by
  cases i <;> simp only [Instr.mask] <;> decide

/-- A row's match has the leading bits of the words that lie in the row. -/
theorem maskOf_of_row (h : w &&& i.mask = i.pattern) : maskOf w = i.mask := by
  obtain ⟨hC, h3⟩ := mask_and_top i
  have hC : w &&& 0xC000#16 = i.pattern &&& 0xC000#16 := by rw [← h, BitVec.and_assoc, hC]
  have h3 : w &&& 0x3000#16 = i.pattern &&& 0x3000#16 := by rw [← h, BitVec.and_assoc, h3]
  rw [← maskOf_pattern i, maskOf, maskOf, hC, h3]

/-- Settles O3: the row by `decode_row`; any other row of the word has the same mask, hence the same match. -/
theorem everyWordSelectsOneRow : Obligations.EveryWordSelectsOneRow := by
  intro w
  obtain ⟨i, hdecode, hi⟩ := decode_row w
  refine ⟨i, hdecode, hi, fun j hj => ?_⟩
  have hmask : j.mask = i.mask := (maskOf_of_row hj).symm.trans (maskOf_of_row hi)
  exact ⟨hmask, by rw [← hi, ← hj, hmask]⟩

/-! ### Bits drawn `x` (R97, R99) -/

/-- Where format R2 begins with four zeros, the decoder reads the word as one of it (R85). -/
theorem decode_of_top4 (h : w.extractLsb' 12 4 = 0b0000#4) : decode w = decodeR2 w := by
  have h12 := extract_toNat w 12 4
  rw [h, BitVec.toNat_ofNat] at h12
  have htop : w.extractLsb' 14 2 = 0b00#2 := by
    refine BitVec.eq_of_toNat_eq ?_
    rw [extract_toNat, BitVec.toNat_ofNat]
    omega
  have hop : (w.extractLsb' 9 5).toNat < 0b01000 := by rw [extract_toNat]; omega
  rw [decode, if_neg (not_not_intro htop), if_neg (by omega), if_neg (by omega)]

/-- Bit 6 lies in none of the fields that format R2 reads. -/
theorem extract_flip_bit6 (w : Word) :
    (w ^^^ 0x0040#16).extractLsb' 12 4 = w.extractLsb' 12 4 ∧ (w ^^^ 0x0040#16).extractLsb' 7 5 = w.extractLsb' 7 5 ∧
      (w ^^^ 0x0040#16).extractLsb' 3 3 = w.extractLsb' 3 3 ∧ (w ^^^ 0x0040#16).extractLsb' 0 3 = w.extractLsb' 0 3 := by
  refine ⟨?_, ?_, ?_, ?_⟩ <;> rw [BitVec.extractLsb'_xor] <;> exact BitVec.xor_zero

theorem decode_flip_bit6 (h : w.extractLsb' 12 4 = 0b0000#4) : decode (w ^^^ 0x0040#16) = decode w := by
  obtain ⟨htop, hop, hrs, hrd⟩ := extract_flip_bit6 w
  rw [decode_of_top4 (htop.trans h), decode_of_top4 h]
  simp only [decodeR2, rsOf, rdOf, hop, hrs, hrd]

/-- A word of format R2 by its nine leading bits `a`: the four zeros and the opcode. -/
theorem decode_of_lead9 {a : BitVec 9} (h : w.extractLsb' 7 9 = a) (ha : a.extractLsb' 5 4 = 0b0000#4) :
    decode w = decodeR2 w ∧ w.extractLsb' 7 5 = a.extractLsb' 0 5 := by
  have hsplit : w.extractLsb' 12 4 ++ w.extractLsb' 7 5 = a :=
    (BitVec.extractLsb'_append_extractLsb'_eq_extractLsb' rfl).trans h
  have htop : w.extractLsb' 12 4 = a.extractLsb' 5 4 := by rw [← hsplit, BitVec.extractLsb'_append_eq_left]
  exact ⟨decode_of_top4 (htop.trans ha), by rw [← hsplit, BitVec.extractLsb'_append_eq_right]⟩

/-- A word of format R2 that names Rd alone: `answer` is what the row of its opcode decodes to, whatever the other four
bits are. -/
theorem decode_lead9_rd {a : BitVec 9} {r : Reg} {answer : Option Instr} (ha : a.extractLsb' 5 4 = 0b0000#4)
    (x : BitVec 4) (hrow : ∀ w : Word, w.extractLsb' 7 5 = a.extractLsb' 0 5 → rdOf w = r → decodeR2 w = answer) :
    decode (a ++ x ++ r.bits) = answer := by
  have hlead : (a ++ x ++ r.bits : Word).extractLsb' 7 9 = a :=
    (BitVec.extractLsb'_append_eq_of_le (by decide)).trans BitVec.extractLsb'_append_eq_left
  obtain ⟨hdecode, hop⟩ := decode_of_lead9 hlead ha
  have hrd : rdOf (a ++ x ++ r.bits) = r :=
    (congrArg Reg.ofBits BitVec.extractLsb'_append_eq_right).trans r.ofBits_bits
  exact hdecode.trans (hrow _ hop hrd)

/-- `mov Rs, SP`, which names Rs alone. -/
theorem decode_mov_rq (x : BitVec 1) (r : Reg) (y : BitVec 3) :
    decode (0b000000001#9 ++ x ++ r.bits ++ y) = some (.mov_rq r) := by
  have hlead : (0b000000001#9 ++ x ++ r.bits ++ y : Word).extractLsb' 7 9 = 0b000000001#9 :=
    (BitVec.extractLsb'_append_eq_of_le (by decide)).trans
      ((BitVec.extractLsb'_append_eq_of_le (by decide)).trans BitVec.extractLsb'_append_eq_left)
  have hrs : rsOf (0b000000001#9 ++ x ++ r.bits ++ y) = r := by
    have hfield : (0b000000001#9 ++ x ++ r.bits ++ y : Word).extractLsb' 3 3 = r.bits :=
      (BitVec.extractLsb'_append_eq_of_le (by decide)).trans BitVec.extractLsb'_append_eq_right
    exact (congrArg Reg.ofBits hfield).trans r.ofBits_bits
  obtain ⟨hdecode, hop⟩ := decode_of_lead9 hlead (by decide)
  rw [hdecode, decodeR2, hop, hrs]
  rfl

/-- A word of format R2 that names no register. -/
theorem decode_lead9_none {a : BitVec 9} {answer : Option Instr} (ha : a.extractLsb' 5 4 = 0b0000#4) (x : BitVec 7)
    (hrow : ∀ w : Word, w.extractLsb' 7 5 = a.extractLsb' 0 5 → decodeR2 w = answer) : decode (a ++ x) = answer := by
  obtain ⟨hdecode, hop⟩ := decode_of_lead9 (w := a ++ x) BitVec.extractLsb'_append_eq_left ha
  exact hdecode.trans (hrow _ hop)

/-- A word of format R3 by its seven leading bits `a`, 00 and the opcode; `answer` is what the row of the opcode decodes
to, whatever the other nine bits are. -/
theorem decode_lead7 {a : BitVec 7} {answer : Option Instr} (htop : a.extractLsb' 5 2 = 0b00#2)
    (lo : 0b01000 ≤ (a.extractLsb' 0 5).toNat) (hi : (a.extractLsb' 0 5).toNat < 0b11100) (x : BitVec 9)
    (hrow : ∀ w : Word, w.extractLsb' 9 5 = a.extractLsb' 0 5 → decodeR3 w = answer) : decode (a ++ x) = answer := by
  have h14 : (a ++ x : Word).extractLsb' 14 2 = 0b00#2 :=
    (BitVec.extractLsb'_append_eq_of_le (by decide)).trans htop
  have h9 : (a ++ x : Word).extractLsb' 9 5 = a.extractLsb' 0 5 := BitVec.extractLsb'_append_eq_of_le (by decide)
  rw [decode, if_neg (not_not_intro h14), h9, if_neg (Nat.not_le_of_lt hi), if_pos lo]
  exact hrow _ h9

/-- Every word of opcode 11010 in format I2 is the reserved slot. -/
theorem decode_reserved_I2 (x : BitVec 11) : decode (0b11010#5 ++ x) = some .reserved_I2_11010 := by
  have h14 : (0b11010#5 ++ x : Word).extractLsb' 14 2 = 0b11#2 := BitVec.extractLsb'_append_eq_of_le (by decide)
  have h11 : (0b11010#5 ++ x : Word).extractLsb' 11 5 = 0b11010#5 := BitVec.extractLsb'_append_eq_left
  rw [decode, h14, h11, if_pos (by decide), if_neg (by decide), if_pos (by decide), decodeI2, h11]
  rfl

/-- Settles O4: in every clause the opcode leads to the row, and no field that the row reads holds an ignored bit. -/
theorem ignoredBitsDoNotMatter : Obligations.IgnoredBitsDoNotMatter := by
  refine ⟨fun w => decode_flip_bit6, fun x r => ?onlyRd, decode_mov_rq, fun x => ?noRegister, fun x => ?reservedR3,
    decode_reserved_I2⟩
  case onlyRd =>
    refine ⟨?_, ?_, ?_, ?_, ?_⟩
    all_goals exact decode_lead9_rd (by decide) x fun w hop hrd => by rw [decodeR2, hop, hrd]; rfl
  case noRegister =>
    refine ⟨?_, ?_, ?_, ?_, ?_, ?_, ?_, ?_, ?_, ?_, ?_, ?_, ?_, ?_⟩
    all_goals exact decode_lead9_none (by decide) x fun w hop => by rw [decodeR2, hop]; rfl
  case reservedR3 =>
    refine ⟨?_, ?_, ?_, ?_, ?_⟩
    all_goals exact decode_lead7 (by decide) (by decide) (by decide) x fun w hop => by rw [decodeR3, hop]; rfl

/-- Settles O2. -/
theorem decodeOfEncode : Obligations.DecodeOfEncode := decode_encode

/-- Settles O1: each word of the tables is one evaluation of the decoder. -/
theorem tableWordsDecode : Obligations.TableWordsDecode := by
  unfold Obligations.TableWordsDecode
  decide

end Sys2Proof
end

section
/-! The step (R55, R258, R274) and interrupts (R277 to R281): what comes before an instruction at a boundary, the state that
interrupt entry leaves under IRQ_MODEL = stack, and the return from it. -/

namespace Sys2Proof.Machine

section Boundary

variable {s : State} {k : Nat} {w : Word} {vector : Word}

/-! ### The boundary before an instruction (R258, R274, R277) -/

theorem step_of_halted (h : s.halted = true) : step s = .refused .halted := by
  rw [step, if_pos h]

theorem step_of_accepts (hh : s.halted = false) (ha : s.accepts = true) : step s = s.sampled.takeInterrupt := by
  simp only [step, hh, ha]
  rfl

theorem State.accepts_of_irqNow_eq_false (h : s.irq.headD false = false) : s.accepts = false := by
  simp only [State.accepts, State.irqNow, h, Bool.false_and]

theorem step_of_fetch_fault {f : Fault} (hh : s.halted = false) (ha : s.accepts = false) (hf : s.fetch = .fault f) :
    step s = .fault f := by
  simp [step, hh, ha, hf]

theorem step_of_fetch_refused {r : Refusal} (hh : s.halted = false) (ha : s.accepts = false)
    (hf : s.fetch = .refused r) : step s = .refused r := by
  simp [step, hh, ha, hf]

/-! ### The word at the pc (R39, R54, R274) -/

theorem State.codeIndex_of_wordAddressed (h : s.cfg.pmWordAddressed = true) (a : Word) :
    s.codeIndex a = some a.toNat := by
  rw [State.codeIndex, if_pos h]

theorem State.codeIndex_of_even {a : Word} (h : s.cfg.pmWordAddressed = false) (ha : a.toNat % 2 = 0) :
    s.codeIndex a = some (a.toNat / 2) := by
  simp [State.codeIndex, h, bit0_eq, ha]

/-- Byte-addressed program memory has no word at an odd address (log entry 2). -/
theorem State.codeIndex_of_odd {a : Word} (h : s.cfg.pmWordAddressed = false) (ha : a.toNat % 2 = 1) :
    s.codeIndex a = none := by
  simp [State.codeIndex, h, bit0_eq, ha]

theorem State.fetch_of_unloaded (hk : s.codeIndex s.pc = some k) (hw : Cells.lookup s.pmem k = none) :
    s.fetch = .fault (.unwrittenRead s.pc) := by
  simp only [State.fetch, hk, hw]

theorem State.fetch_of_codeIndex_none (hk : s.codeIndex s.pc = none) : s.fetch = .refused (.oddCodeAddress s.pc) := by
  simp only [State.fetch, hk]

theorem State.codeWord_of_lookup (hw : Cells.lookup s.pmem k = some w) : s.codeWord k = w := by
  simp only [State.codeWord, hw]

/-- The word that the faults report is the loaded one (R270; log entry 30). -/
theorem State.word_of_lookup (hk : s.codeIndex s.pc = some k) (hw : Cells.lookup s.pmem k = some w) : s.word = w := by
  simp only [State.word, hk, State.codeWord_of_lookup hw]

/-! ### Two words on the stack (R51, R53) -/

theorem State.wordValue_putWord (s : State) (c v : Word) :
    wordValue s.cfg.byteOrder ((s.putWord c v).byteAt c) ((s.putWord c v).byteAt (c + 1#16)) = v.toNat := by
  rw [← joinBytes_toNat, State.joinBytes_putWord]

theorem State.byteAt_putWord_ne {a c : Word} (v : Word) (h0 : a ≠ c) (h1 : a ≠ c + 1#16) :
    (s.putWord c v).byteAt a = s.byteAt a := by
  rw [State.byteAt_putWord, if_neg h1, if_neg h0]

theorem flagImage_toNat (f : SR) :
    (flagImage f).toNat = 8 * f.i.toNat + 4 * f.t.toNat + 2 * f.c.toNat + f.z.toNat := by
  obtain ⟨i, t, c, z⟩ := f
  revert i t c z
  decide

/-! ### Interrupt entry and the return (R279, R280) -/

/-- The state after interrupt entry, when both pushes go through: the pc lies at SP - 2, the flag image at SP - 4. -/
def State.entered (s : State) (vector : Word) : State :=
  { (s.putWord (s.sp - 2#16) s.pc).putWord (s.sp - 4#16) (flagImage s.sr) with
    sp := s.sp - 4#16, sr := { s.sr with i := false }, pc := vector, irq := s.irq.tail }

theorem State.TakesRequest.step_entered (h : s.TakesRequest vector) (h2 : s.WordAccess (s.sp - 2#16))
    (h4 : s.WordAccess (s.sp - 4#16)) : step s = .next (s.entered vector) := by
  have hsp : s.sp - 2#16 - 2#16 = s.sp - 4#16 := by bv_omega
  have hbase : s.wordBase (s.sp - 2#16 - 2#16) = .ok (s.sp - 4#16) := hsp ▸ h4.base
  rw [h.step_eq, State.enterInterrupt_of_base (s := s.sampled) h2.base hbase, State.sampled_sp, hsp]
  rfl

theorem State.entered_byteAt (s : State) (vector a : Word) : (s.entered vector).byteAt a =
    ((s.putWord (s.sp - 2#16) s.pc).putWord (s.sp - 4#16) (flagImage s.sr)).byteAt a := rfl

/-- The second push leaves the two bytes of the first alone. -/
theorem State.entered_byteAt_pc (s : State) (vector : Word) :
    (s.entered vector).byteAt (s.sp - 2#16) = (s.putWord (s.sp - 2#16) s.pc).byteAt (s.sp - 2#16) ∧
      (s.entered vector).byteAt (s.sp - 2#16 + 1#16) = (s.putWord (s.sp - 2#16) s.pc).byteAt (s.sp - 2#16 + 1#16) := by
  constructor <;> exact State.byteAt_putWord_ne _ (by bv_omega) (by bv_omega)

/-- Interrupt entry writes its four stack bytes and no other. -/
theorem State.entered_byteAt_ne {a : Word} (vector : Word) (h1 : a ≠ s.sp - 1#16) (h2 : a ≠ s.sp - 2#16)
    (h3 : a ≠ s.sp - 3#16) (h4 : a ≠ s.sp - 4#16) : (s.entered vector).byteAt a = s.byteAt a := by
  rw [State.entered_byteAt, State.byteAt_putWord_ne _ h4 (by bv_omega), State.byteAt_putWord_ne _ h2 (by bv_omega)]

/-- `reti` takes the flags from the word at SP and the pc from the word above it (R280). -/
theorem exec_reti_of_wordAccess (hp : s.pfx = none) (hm : s.cfg.irqModel = .stack vector) (h0 : s.WordAccess s.sp)
    (h2 : s.WordAccess (s.sp + 2#16)) : exec .reti s = .next { s with
      sp := s.sp + 4#16, pfx := none
      sr := flagsOfImage (joinBytes s.cfg.byteOrder (s.byteAt s.sp) (s.byteAt (s.sp + 1#16)))
      pc := joinBytes s.cfg.byteOrder (s.byteAt (s.sp + 2#16)) (s.byteAt (s.sp + 2#16 + 1#16)) } := by
  have hsp : s.sp + 2#16 + 2#16 = s.sp + 4#16 := by bv_omega
  rw [exec_reti_of_stack hp hm, State.leaveInterrupt_of_base h0.base h2.base, hsp]

/-- `reti` right after interrupt entry finds both words as they were pushed, so the pc, SP and the flags come back. -/
theorem exec_reti_entered (h : s.TakesRequest vector) (h2 : s.WordAccess (s.sp - 2#16))
    (h4 : s.WordAccess (s.sp - 4#16)) :
    exec .reti (s.entered vector) = .next { s with mem := (s.entered vector).mem, irq := s.irq.tail } := by
  obtain ⟨-, -, -, hp, hm⟩ := h
  have hpc : s.sp - 4#16 + 2#16 = s.sp - 2#16 := by bv_omega
  have hsp : s.sp - 4#16 + 4#16 = s.sp := BitVec.sub_add_cancel ..
  have himg : joinBytes s.cfg.byteOrder ((s.entered vector).byteAt (s.sp - 4#16))
      ((s.entered vector).byteAt (s.sp - 4#16 + 1#16)) = flagImage s.sr :=
    State.joinBytes_putWord (s.putWord (s.sp - 2#16) s.pc) (s.sp - 4#16) (flagImage s.sr)
  have hra : joinBytes s.cfg.byteOrder ((s.entered vector).byteAt (s.sp - 2#16))
      ((s.entered vector).byteAt (s.sp - 2#16 + 1#16)) = s.pc := by
    obtain ⟨b0, b1⟩ := s.entered_byteAt_pc vector
    rw [b0, b1, State.joinBytes_putWord]
  calc exec .reti (s.entered vector)
    _ = .next { s.entered vector with
          sp := s.sp - 4#16 + 4#16, pfx := none
          sr := flagsOfImage (joinBytes s.cfg.byteOrder ((s.entered vector).byteAt (s.sp - 4#16))
            ((s.entered vector).byteAt (s.sp - 4#16 + 1#16)))
          pc := joinBytes s.cfg.byteOrder ((s.entered vector).byteAt (s.sp - 4#16 + 2#16))
            ((s.entered vector).byteAt (s.sp - 4#16 + 2#16 + 1#16)) } :=
      exec_reti_of_wordAccess (s := s.entered vector) hp hm h4 (hpc.symm ▸ h2)
    _ = .next { s.entered vector with sp := s.sp, pfx := none, sr := s.sr, pc := s.pc } := by
      rw [himg, hpc, hra, hsp, State.flagsOfImage_flagImage]
    _ = .next { s with mem := (s.entered vector).mem, irq := s.irq.tail } := by rw [← hp]; rfl

end Boundary

/-! ### The obligations -/

/-- Settles O6: no request is accepted and the fetch answers the loaded word, which `State.word` names as well. -/
theorem stepRunsDecodedInstruction : Obligations.StepRunsDecodedInstruction := by
  intro s k w i hh hn hk hw hd
  have ha : s.accepts = false := by
    rw [Bool.eq_false_iff, Ne, State.accepts_iff]
    exact fun ⟨hi, hI, hp, _⟩ => hn ⟨hi, hI, hp⟩
  exact ⟨step_of_fetch hh ha (State.fetch_of_lookup hk hw) hd, State.word_of_lookup (s := s.sampled) hk hw⟩

/-- Settles O7. -/
theorem everyPcNamesAWord : Obligations.EveryPcNamesAWord := by
  intro s h
  refine ⟨State.codeIndex_of_wordAddressed h s.pc, ?advance⟩
  case advance => rw [State.nextPc_of_wordAddressed h, BitVec.toNat_add, BitVec.toNat_ofNat]

/-- Settles O8: one lemma for each stop of the step. -/
theorem stepStopsWhenHaltedOrUnloaded : Obligations.StepStopsWhenHaltedOrUnloaded := by
  refine ⟨fun s => step_of_halted, fun s k hh hi hk hw => ?unloaded, fun s hh hi hm ho => ?odd⟩
  case unloaded =>
    exact step_of_fetch_fault hh (State.accepts_of_irqNow_eq_false hi) (State.fetch_of_unloaded hk hw)
  case odd =>
    have hf := State.fetch_of_codeIndex_none (State.codeIndex_of_odd hm ho)
    exact step_of_fetch_refused hh (State.accepts_of_irqNow_eq_false hi) hf

/-- Settles O10. -/
theorem refusedRequestFaults : Obligations.RefusedRequestFaults := by
  intro s hh hi hI hp hm
  have ha : s.accepts = true := s.accepts_iff.2 ⟨hi, hI, hp, hh⟩
  rw [step_of_accepts hh ha, State.takeInterrupt, State.sampled_cfg, hm]

/-- Settles O11: the state is `State.entered`, whose two words are those of the two pushes. -/
theorem acceptedRequestPushesPcAndFlags : Obligations.AcceptedRequestPushesPcAndFlags := by
  intro s vector hh hi hI hp hm h2 h4
  refine ⟨s.entered vector, State.TakesRequest.step_entered ⟨hh, hi, hI, hp, hm⟩ h2 h4, rfl, ?pc, ?flags,
    fun a => s.entered_byteAt_ne vector⟩
  case pc =>
    have hnext : s.sp - 1#16 = s.sp - 2#16 + 1#16 := by bv_omega
    obtain ⟨b0, b1⟩ := s.entered_byteAt_pc vector
    rw [hnext, b0, b1, State.wordValue_putWord]
  case flags =>
    have hnext : s.sp - 3#16 = s.sp - 4#16 + 1#16 := by bv_omega
    rw [hnext, ← flagImage_toNat]
    exact State.wordValue_putWord (s.putWord (s.sp - 2#16) s.pc) (s.sp - 4#16) (flagImage s.sr)

/-- Settles O12: both popped words by their bytes. -/
theorem retiRestoresFlagsAndPc : Obligations.RetiRestoresFlagsAndPc := by
  intro s vector hp hm h0 h2
  have hnext : s.sp + 3#16 = s.sp + 2#16 + 1#16 := by bv_omega
  exact ⟨_, _, joinBytes_toNat .., hnext ▸ joinBytes_toNat .., exec_reti_of_wordAccess hp hm h0 h2⟩

/-- Settles O13. -/
theorem retiUndoesInterruptEntry : Obligations.RetiUndoesInterruptEntry := by
  intro s vector hh hi hI hp hm h2 h4
  have h : s.TakesRequest vector := ⟨hh, hi, hI, hp, hm⟩
  exact ⟨_, _, h.step_entered h2 h4, exec_reti_entered h h2 h4, rfl⟩

/-- Settles O14. -/
theorem retiUnderRefuseFaults : Obligations.RetiUnderRefuseFaults := by
  intro s hp hm
  calc exec .reti s = _ := State.unprefixed_none hp
    _ = .fault (.interruptUnspecified (.reti s.word)) := by simp only [hm]

/-- Settles O59: reset loads nothing and writes nothing, and the empty memories are in canonical form. -/
theorem resetLeavesTheStatedValues : Obligations.ResetLeavesTheStatedValues := by
  have hempty : ∀ {α : Type}, Cells.wf ([] : List (Nat × α)) := ⟨List.Pairwise.nil, by simp⟩
  exact ⟨rfl, rfl, rfl, rfl, rfl, fun _ => rfl, hempty, hempty⟩

end Sys2Proof.Machine
end

section
/-! Instructions that write one thing and end: the slots without an instruction and the misuse of a prefix (R97, R98, R124),
system instructions (R255 to R258), moves and address sums (R137 to R139, R185 to R190), control flow (R240 to R246), and the
load from program memory (R219). -/

namespace Sys2Proof.Machine

section Endings

variable {s : State} {rd : Reg} {v a : Word} {i : Instr}

/-! ### Ending an instruction with no prefix pending (R26) -/

theorem State.finish_of_pfx_none (h : s.pfx = none) :
    s.finish rd v = .next { s with regs := s.regs.set rd v, pc := s.nextPc } := by
  rw [State.finish_eq, h]

theorem State.jumpTo_of_pfx_none (h : s.pfx = none) : s.jumpTo a = { s with pc := a } := by
  rw [State.jumpTo, h]

/-- A register form that ends by writing Rd. -/
theorem State.unprefixed_finish (h : s.pfx = none) :
    s.unprefixed (s.finish rd v) = .next { s with regs := s.regs.set rd v, pc := s.nextPc } :=
  (State.unprefixed_none h).trans (State.finish_of_pfx_none h)

/-- A register form whose outcome is the end of an instruction in `t`, which differs from `s` in what it writes. -/
theorem State.unprefixed_retire {t : State} (hs : s.pfx = none) (ht : t.pfx = none) :
    s.unprefixed (.next t.retire) = .next { t with pc := t.nextPc } :=
  (State.unprefixed_none hs).trans (congrArg _ (State.retire_of_pfx_none ht))

/-! ### Stack slots (R70) -/

/-- A call stores the address of the next word at SP - 2 and goes to its target (R244, R245). -/
theorem State.callTo_of_wordAccess (h : s.WordAccess (s.sp - 2#16)) :
    s.callTo a = .next { s.putWord (s.sp - 2#16) s.nextPc with sp := s.sp - 2#16, pfx := none, pc := a } :=
  State.callTo_of_base h.base

/-- `ret` with no prefix pending goes to the word at SP. -/
theorem exec_ret_of_wordAccess (hp : s.pfx = none) (h : s.WordAccess s.sp) :
    exec .ret s = .next { s with
      sp := s.sp + 2#16, pc := joinBytes s.cfg.byteOrder (s.byteAt s.sp) (s.byteAt (s.sp + 1#16)) } :=
  exec_ret_of_base hp h.base rfl

/-! ### The swap of two bytes (R188) -/

theorem bswap_toNat (v : Word) :
    (v.extractLsb' 0 8 ++ v.extractLsb' 8 8 : Word).toNat = 256 * (v.toNat % 256) + v.toNat / 256 := by
  have hv := v.isLt
  calc (v.extractLsb' 0 8 ++ v.extractLsb' 8 8 : Word).toNat
    _ = 256 * (v.extractLsb' 0 8).toNat + (v.extractLsb' 8 8).toNat := joinBytes_toNat .big _ _
    _ = 256 * (v.toNat % 256) + v.toNat / 256 := by
      rw [lowByte_toNat, BitVec.extractLsb'_toNat, Nat.shiftRight_eq_div_pow]
      omega

/-! ### The load from program memory (R219) -/

theorem exec_movw_pr_of_codeIndex {rs : Reg} {k : Nat} (hp : s.pfx = none) (hk : s.codeIndex (s.x rs) = some k) :
    exec (.movw_pr rs rd) s = .next { s with regs := s.regs.set rd (s.codeWord k), pc := s.nextPc } := by
  calc exec (.movw_pr rs rd) s = _ := State.unprefixed_none hp
    _ = s.finish rd (s.codeWord k) := by simp only [hk]
    _ = _ := State.finish_of_pfx_none hp

theorem exec_movw_pr_of_odd {rs : Reg} (hp : s.pfx = none) (hk : s.codeIndex (s.x rs) = none) :
    exec (.movw_pr rs rd) s = .refused (.oddCodeAddress (s.x rs)) := by
  calc exec (.movw_pr rs rd) s = _ := State.unprefixed_none hp
    _ = .refused (.oddCodeAddress (s.x rs)) := by simp only [hk]

end Endings

/-! ### The obligations -/

/-- Settles O17: the instructions of R3 and R2 check for a prefix first, as `pfix_k` does; no other row is listed. -/
theorem prefixMisuseFaults : Obligations.PrefixMisuseFaults := by
  intro i s p hi hp
  cases i
  case cmp_rrc | cmpc_rrc | sub_rrr | subc_rrr | or_rrr | and_rrr | xor_rrr | adc_rrr | add_rrr | movw_nr | movzb_nr
      | movsb_nr | movw_rn | movb_rn | sel_rrr | mov_rr | mov_rq | zext_rr | sext_rr | bswap_rr | sextw_rr | movw_pr
      | lsr_rr | lsrc_rr | asr_rr | neg_rr | not_rr | jmp_r | call_r | set_1r | ret | reti | dint | eint | halt =>
    exact State.unprefixed_some hp
  case pfix_k k => exact execPfixK_of_pfx_some k hp
  all_goals cases hi

/-- Settles O51: each of the 18 slots is one fault, and no other row has its status. -/
theorem slotsWithoutInstructionFault : Obligations.SlotsWithoutInstructionFault := by
  refine fun i s => ⟨fun h => ?reserved, fun h => ?notImplemented⟩
  case reserved =>
    cases i
    case reserved_I2_11010 | reserved_R3_10110 | reserved_R3_10111 | reserved_R3_11001 | reserved_R3_11010
        | reserved_R3_11011 | reserved_R2_00110 | reserved_R2_01011 | reserved_R2_01100 | reserved_R2_01111
        | reserved_R2_10100 | reserved_R2_10101 | reserved_R2_11101 | reserved_R2_11110 | reserved_R2_11111 =>
      rfl
    all_goals cases h
  case notImplemented =>
    cases i
    case set_rr | mov_sr | mov_rs => rfl
    all_goals cases h

/-- Settles O49. -/
theorem interruptEnableFollowsEintAndDint : Obligations.InterruptEnableFollowsEintAndDint := fun s h =>
  ⟨State.unprefixed_retire (t := { s with sr := { s.sr with i := true } }) h h,
    State.unprefixed_retire (t := { s with sr := { s.sr with i := false } }) h h⟩

/-- Settles O50: the halted bit stops the next step. -/
theorem haltEndsTheRun : Obligations.HaltEndsTheRun := by
  intro s h
  have hhalt : exec .halt s = .next { s with halted := true, pc := s.nextPc } :=
    State.unprefixed_retire (t := { s with halted := true }) h h
  refine ⟨hhalt, fun t ht => step_of_halted ?_⟩
  obtain rfl : _ = t := Host.Outcome.next.inj (hhalt.symm.trans ht)
  rfl

/-- Settles O45: a branch goes to one of its two targets by T. -/
theorem branchesGoToTheirTarget : Obligations.BranchesGoToTheirTarget := by
  refine fun s => ⟨fun k => ⟨fun h => ?_, fun h => ?_, fun h => ?_, fun h => ?_, rfl⟩, fun rd h => ?register⟩
  case register => exact (State.unprefixed_none h).trans (congrArg _ (State.jumpTo_of_pfx_none h))
  all_goals
    simp only [exec, execBrNt, execBrT, h]
    rfl

/-- Settles O46. -/
theorem callsPushTheReturnAddress : Obligations.CallsPushTheReturnAddress := by
  intro s i target hi h
  have hnext : s.sp - 1#16 = s.sp - 2#16 + 1#16 := by bv_omega
  have hcall : exec i s = s.callTo target := by
    rcases hi with ⟨k, rfl, rfl⟩ | ⟨rd, rfl, rfl, hp⟩
    · rfl
    · exact State.unprefixed_none hp
  rw [hnext]
  exact ⟨_, hcall.trans (State.callTo_of_wordAccess h), rfl, s.wordValue_putWord _ _,
    fun a h0 h1 => State.byteAt_putWord_ne _ h0 h1⟩

/-- Settles O47. -/
theorem retPopsThePc : Obligations.RetPopsThePc := fun _ hp h =>
  ⟨_, joinBytes_toNat .., exec_ret_of_wordAccess hp h⟩

/-- Settles O22: the three sums are the operands of their instructions. -/
theorem addressSumsWriteNoFlag : Obligations.AddressSumsWriteNoFlag := fun _ =>
  ⟨fun _ _ _ => State.finish_eq, fun _ _ => State.finish_eq, fun _ => rfl⟩

/-- Settles O32. -/
theorem movesWriteTheirDestination : Obligations.MovesWriteTheirDestination := fun s =>
  ⟨fun _ _ => State.finish_eq, fun _ _ => State.unprefixed_finish,
    fun rs h => State.unprefixed_retire (t := { s with sp := s.x rs }) h h,
    fun rs _ h => ⟨_, bswap_toNat (s.x rs), State.unprefixed_finish h⟩⟩

/-- Settles O33: the written value is chosen by T. -/
theorem selectAndSetFollowT : Obligations.SelectAndSetFollowT := by
  refine fun s h => ⟨fun rs rn rd => ⟨fun ht => ?_, fun ht => ?_⟩, fun rd => ⟨fun ht => ?_, fun ht => ?_⟩⟩
  all_goals
    refine (State.unprefixed_finish h).trans ?_
    rw [ht]
    rfl

/-- Settles O34. -/
theorem everyRegisterReadsBack : Obligations.EveryRegisterReadsBack := Regs.get_set

/-- Settles O39: one clause for each answer of `State.codeIndex`; a loaded word is the one that is read. -/
theorem programLoadReadsTheWord : Obligations.ProgramLoadReadsTheWord := by
  refine fun s rs rd hp => ⟨fun hm => ?wordAddressed, fun hm he => ?even, fun hm ho => ?odd⟩
  case wordAddressed =>
    exact ⟨_, fun w => State.codeWord_of_lookup, exec_movw_pr_of_codeIndex hp (State.codeIndex_of_wordAddressed hm _)⟩
  case even =>
    exact ⟨_, fun w => State.codeWord_of_lookup, exec_movw_pr_of_codeIndex hp (State.codeIndex_of_even hm he)⟩
  case odd => exact exec_movw_pr_of_odd hp (State.codeIndex_of_odd hm ho)

end Sys2Proof.Machine
end

section
/-! Word loads and stores that go through (R51 to R53, R63, R200), the word that comes back (R65), and the accesses that no
memory backs (R52, R270; D21). -/

namespace Sys2Proof.Machine

section LoadStore

variable {s t u : State} {i j : Instr} {rd q : Reg} {ea a b c : Word}

/-! ### A word access whose base is `b` (R52, R53) -/

/-- The word load puts into Rd the word that the two bytes from `b` on make. -/
theorem State.LoadsWord.reads (h : s.LoadsWord i rd ea) (hb : s.wordBase ea = .ok b) :
    ∃ v : Word, v.toNat = wordValue s.cfg.byteOrder (s.byteAt b) (s.byteAt (b + 1#16)) ∧
      exec i s = .next { s with regs := s.regs.set rd v, pc := s.nextPc, pfx := none } :=
  ⟨_, joinBytes_toNat .., h.exec_eq.trans (State.loadWord_of_base hb)⟩

/-- The word store writes the two bytes from `b` on, and no other byte. -/
theorem State.StoresWord.writes (h : s.StoresWord i rd ea) (hb : s.wordBase ea = .ok b) :
    ∃ t : State, exec i s = .next t ∧ t = { s with mem := t.mem, pc := s.nextPc, pfx := none } ∧
      wordValue s.cfg.byteOrder (t.byteAt b) (t.byteAt (b + 1#16)) = (s.x rd).toNat ∧
      ∀ a, a ≠ b → a ≠ b + 1#16 → t.byteAt a = s.byteAt a :=
  ⟨_, h.exec_eq.trans (State.storeWord_of_base hb), rfl, s.wordValue_putWord b (s.x rd),
    fun _ h0 h1 => State.byteAt_putWord_ne _ h0 h1⟩

/-- At an odd address the two readings of MISALIGNED_WORD that go on access the bytes from `b` on (D7; log entry 8). -/
theorem State.wordBase_of_odd_reading (ho : ea.toNat % 2 = 1)
    (hr : (s.cfg.misalignedWord = .ignoreBit0 ∧ b = ea - 1#16) ∨ (s.cfg.misalignedWord = .split ∧ b = ea))
    (hb : s.Backed b) : s.wordBase ea = .ok b := by
  have hfirst : s.FirstByte ea b := by
    rcases hr with ⟨hm, hb⟩ | ⟨hm, hb⟩
    · exact .inr (.inl ⟨ho, hm, hb⟩)
    · exact .inr (.inr ⟨ho, hm, hb⟩)
  exact hfirst.base hb

/-- A load from a base whose bytes are those that a store of `s` left there puts the stored word into its register. -/
theorem State.LoadsWord.reads_stored (h : u.LoadsWord j q ea) (hcfg : u.cfg = s.cfg) (hc : s.wordBase ea = .ok c)
    (h0 : u.byteAt c = (s.putWord c (s.x rd)).byteAt c)
    (h1 : u.byteAt (c + 1#16) = (s.putWord c (s.x rd)).byteAt (c + 1#16)) :
    exec j u = .next { u with regs := u.regs.set q (s.x rd), pc := u.nextPc, pfx := none } := by
  have hbase : u.wordBase ea = .ok c := (State.wordBase_congr hcfg).trans hc
  rw [h.exec_eq, State.loadWord_of_base hbase, hcfg, h0, h1, State.joinBytes_putWord]

/-! ### A byte access without backing (R52) -/

theorem State.readByte_of_unbacked (h : s.dmemValid a = false) : s.readByte a = .error (.unmappedAccess a) := by
  simp [State.readByte, h]

theorem State.loadZeroByte_of_unbacked (h : s.dmemValid a = false) :
    s.loadZeroByte rd a = .fault (.unmappedAccess a) := by
  simp only [State.loadZeroByte, State.readByte_of_unbacked h]

theorem State.loadSignByte_of_unbacked (h : s.dmemValid a = false) :
    s.loadSignByte rd a = .fault (.unmappedAccess a) := by
  simp only [State.loadSignByte, State.readByte_of_unbacked h]

theorem State.storeByte_of_unbacked (h : s.dmemValid a = false) : s.storeByte rd a = .fault (.unmappedAccess a) := by
  simp [State.storeByte, State.writeByte, h]

/-! ### Memory that backs every address (D21) -/

/-- An outcome that is not the fault of an access without backing. -/
def Mapped (r : Result) : Prop := ∀ a, r ≠ .fault (.unmappedAccess a)

/-- Every data address is backed. -/
def State.AllBacked (s : State) : Prop := ∀ a, s.dmemValid a = true

/-- The default DMEM_VALID is the whole of the address space. -/
theorem State.allBacked_of_default (h : s.cfg.dmem = Config.default.dmem) : s.AllBacked := by
  intro a
  have ha := a.isLt
  simp [State.dmemValid, h, Config.default, ha]

theorem Mapped.next : Mapped (.next s) := by
  rintro _ ⟨⟩

theorem Mapped.refused {r : Refusal} : Mapped (.refused r) := by
  rintro _ ⟨⟩

theorem Mapped.misaligned : Mapped (.fault (.misalignedWord a)) := by
  rintro _ ⟨⟩

theorem Mapped.unprefixed {r : Result} (h : Mapped r) : Mapped (s.unprefixed r) := by
  unfold State.unprefixed
  split
  · rintro _ ⟨⟩
  · exact h

/-- Where every address is backed, a word access has a base or is misaligned. -/
theorem State.AllBacked.wordBase (h : s.AllBacked) (a : Word) :
    (∃ c, s.wordBase a = .ok c) ∨ s.wordBase a = .error (.misalignedWord a) := by
  have hmapped : ∀ b, (s.dmemValid b && s.dmemValid (b + 1#16)) = true := fun b => by rw [h, h]; rfl
  simp only [State.wordBase, hmapped, if_true]
  split
  · cases s.cfg.misalignedWord
    case fault => exact .inr rfl
    case ignoreBit0 | split => exact .inl ⟨_, rfl⟩
  · exact .inl ⟨_, rfl⟩

theorem Mapped.loadWord (h : s.AllBacked) : Mapped (s.loadWord rd a) := by
  rcases h.wordBase a with ⟨c, hc⟩ | he
  · exact State.loadWord_of_base hc ▸ .next
  · exact State.loadWord_of_error he ▸ .misaligned

theorem Mapped.storeWord (h : s.AllBacked) : Mapped (s.storeWord rd a) := by
  rcases h.wordBase a with ⟨c, hc⟩ | he
  · exact State.storeWord_of_base hc ▸ .next
  · exact State.storeWord_of_error he ▸ .misaligned

theorem Mapped.callTo (h : s.AllBacked) : Mapped (s.callTo a) := by
  rcases h.wordBase (s.sp - 2#16) with ⟨c, hc⟩ | he
  · exact State.callTo_of_base hc ▸ .next
  · exact State.callTo_of_error he ▸ .misaligned

theorem Mapped.returnTo (h : s.AllBacked) : Mapped s.returnTo := by
  rcases h.wordBase s.sp with ⟨c, hc⟩ | he
  · exact State.returnTo_of_base hc ▸ .next
  · exact State.returnTo_of_error he ▸ .misaligned

theorem Mapped.enterInterrupt (h : s.AllBacked) : Mapped (s.enterInterrupt a) := by
  rcases h.wordBase (s.sp - 2#16) with ⟨c, hc⟩ | he
  · rcases h.wordBase (s.sp - 2#16 - 2#16) with ⟨d, hd⟩ | he
    · exact State.enterInterrupt_of_base hc hd ▸ .next
    · exact State.enterInterrupt_of_second_error hc he ▸ .misaligned
  · exact State.enterInterrupt_of_error he ▸ .misaligned

theorem Mapped.leaveInterrupt (h : s.AllBacked) : Mapped s.leaveInterrupt := by
  rcases h.wordBase s.sp with ⟨c, hc⟩ | he
  · rcases h.wordBase (s.sp + 2#16) with ⟨d, hd⟩ | he
    · exact State.leaveInterrupt_of_base hc hd ▸ .next
    · exact State.leaveInterrupt_of_second_error hc he ▸ .misaligned
  · exact State.leaveInterrupt_of_error he ▸ .misaligned

theorem Mapped.loadZeroByte (h : s.AllBacked) : Mapped (s.loadZeroByte rd a) :=
  State.loadZeroByte_of_valid (h a) ▸ .next

theorem Mapped.loadSignByte (h : s.AllBacked) : Mapped (s.loadSignByte rd a) :=
  State.loadSignByte_of_valid (h a) ▸ .next

theorem Mapped.storeByte (h : s.AllBacked) : Mapped (s.storeByte rd a) :=
  State.storeByte_of_valid (h a) ▸ .next

theorem Mapped.movwPr {rs : Reg} : Mapped (execMovwPr rs rd s) := by
  refine unprefixed ?_
  split
  · exact refused
  · exact next

theorem Mapped.reti (h : s.AllBacked) : Mapped (execReti s) := by
  refine unprefixed ?_
  split
  · rintro _ ⟨⟩
  · exact leaveInterrupt h

theorem Mapped.pfixK {k : BitVec 11} : Mapped (execPfixK k s) := by
  unfold execPfixK
  split
  · rintro _ ⟨⟩
  · exact next

theorem Mapped.takeInterrupt (h : s.AllBacked) : Mapped s.takeInterrupt := by
  unfold State.takeInterrupt
  split
  · rintro _ ⟨⟩
  · exact enterInterrupt h

open Mapped in
/-- Where every address is backed, no instruction faults for want of backing. -/
theorem exec_mapped (i : Instr) (h : s.AllBacked) : Mapped (exec i s) := by
  cases i
  -- Loads and stores
  case movw_mr | movw_ar | movw_qr => exact loadWord h
  case movzb_mr => exact loadZeroByte h
  case movsb_mr | movsb_ar | movsb_qr => exact loadSignByte h
  case movw_nr => exact unprefixed (loadWord h)
  case movzb_nr => exact unprefixed (loadZeroByte h)
  case movsb_nr => exact unprefixed (loadSignByte h)
  case movw_rm | movw_ra | movw_rq => exact storeWord h
  case movb_rm | movb_ra | movb_rq => exact storeByte h
  case movw_rn => exact unprefixed (storeWord h)
  case movb_rn => exact unprefixed (storeByte h)
  case movw_pr => exact movwPr
  -- The stack
  case call => exact callTo h
  case call_r => exact unprefixed (callTo h)
  case ret => exact unprefixed (returnTo h)
  case reti => exact reti h
  -- Instructions that access no data memory
  case lea_mr | lea_qr | mov_kr | and_kr | cmp_rkc | cmpc_rkc | add_kr | sub_kr | add_kq | br_nt | br_t | jmp_k =>
    exact next
  case pfix_k => exact pfixK
  case sel_rrr | mov_rr | zext_rr | sext_rr | bswap_rr | sextw_rr | set_1r | cmp_rrc | cmpc_rrc | sub_rrr | subc_rrr
      | or_rrr | and_rrr | xor_rrr | adc_rrr | add_rrr | lsr_rr | lsrc_rr | asr_rr | neg_rr | not_rr | mov_rq | jmp_r
      | dint | eint | halt =>
    exact unprefixed next
  -- Slots without an instruction
  case reserved_I2_11010 | reserved_R3_10110 | reserved_R3_10111 | reserved_R3_11001 | reserved_R3_11010
      | reserved_R3_11011 | reserved_R2_00110 | reserved_R2_01011 | reserved_R2_01100 | reserved_R2_01111
      | reserved_R2_10100 | reserved_R2_10101 | reserved_R2_11101 | reserved_R2_11110 | reserved_R2_11111
      | set_rr | mov_sr | mov_rs =>
    rintro _ ⟨⟩

/-- The only fault of a fetch is a word that is not loaded (R274). -/
theorem State.fetch_fault {f : Fault} (h : s.fetch = .fault f) : f = .unwrittenRead s.pc := by
  unfold State.fetch at h
  split at h
  · cases h
  · split at h
    · exact (Fetched.fault.inj h).symm
    · cases h

theorem step_mapped (h : s.AllBacked) : Mapped (step s) := by
  unfold step
  split
  · exact .refused
  · split
    · exact .takeInterrupt (s := s.sampled) h
    · split
      · exact .refused
      · next f hf =>
        obtain rfl := State.fetch_fault hf
        rintro _ ⟨⟩
      · split
        · exact .refused
        · exact exec_mapped (s := s.sampled) _ h

end LoadStore

/-! ### The obligations -/

/-- Settles O35: an even backed address is its own base. -/
theorem wordLoadsReadTwoBytes : Obligations.WordLoadsReadTwoBytes := fun s i ea rd (h : s.LoadsWord i rd ea) ha =>
  h.reads ha.base

/-- Settles O37. -/
theorem wordStoresWriteTwoBytes : Obligations.WordStoresWriteTwoBytes := fun s i ea rd (h : s.StoresWord i rd ea) ha =>
  h.writes ha.base

/-- Settles O41: the base is that of the reading, and from there on the access is as at an even address. -/
theorem oddWordAccessUnderTheOtherReadings : Obligations.OddWordAccessUnderTheOtherReadings := by
  intro s ea b rd ho hr h0 h1
  have hb := State.wordBase_of_odd_reading ho hr ⟨h0, h1⟩
  exact ⟨fun i (h : s.LoadsWord i rd ea) => h.reads hb, fun i (h : s.StoresWord i rd ea) => h.writes hb⟩

/-- Settles O43: each form is one byte access at its address; with the default DMEM_VALID every address is backed. -/
theorem unbackedAccessFaults : Obligations.UnbackedAccessFaults := by
  refine ⟨fun s i ea hv h => ?unbacked, fun s a h => step_mapped (State.allBacked_of_default h) a⟩
  have hz : ∀ rd, s.loadZeroByte rd ea = .fault (.unmappedAccess ea) := fun _ => State.loadZeroByte_of_unbacked hv
  have hs : ∀ rd, s.loadSignByte rd ea = .fault (.unmappedAccess ea) := fun _ => State.loadSignByte_of_unbacked hv
  have hb : ∀ rd, s.storeByte rd ea = .fault (.unmappedAccess ea) := fun _ => State.storeByte_of_unbacked hv
  rcases h with ⟨rd, rs, k, rfl | rfl | rfl, rfl⟩ | ⟨rd, k, rfl | rfl, rfl⟩ | ⟨rd, k, rfl | rfl, rfl⟩ |
    ⟨rd, rs, rn, rfl | rfl | rfl, rfl, hp⟩
  · exact hz rd
  · exact hs rd
  · exact hb rd
  · exact hs rd
  · exact hb rd
  · exact hs rd
  · exact hb rd
  · exact (State.unprefixed_none hp).trans (hz rd)
  · exact (State.unprefixed_none hp).trans (hs rd)
  · exact (State.unprefixed_none hp).trans (hb rd)

/-- Settles O44: the store's base is `c`, and the load finds there the bytes of the stored word. -/
theorem storedWordIsLoadedBack : Obligations.StoredWordIsLoadedBack := by
  intro s t u i j ea c rd q hstore ht hc hcfg h0 h1 hload
  obtain ⟨d, hd, rfl⟩ := State.storeWord_next (hstore.exec_eq.symm.trans ht)
  obtain rfl : c = d := hc.eq_of_base hd
  exact hload.reads_stored hcfg hd h0 h1

end Sys2Proof.Machine
end

section
/-! Arithmetic, logic and shifts (41_arithmetic_logic.md): what each shared ending writes, in numbers (R132 to R150), and the
operands that each form gives it. -/

namespace Sys2Proof.Machine

section Arithmetic

variable {s : State} {rs rn rd : Reg} {a b r v : Word}

/-! ### Sums with carry-in and differences (R10, R132 to R136) -/

theorem add17_r_toNat (a b : Word) (cin : Bool) : (add17 a b cin).r.toNat = (a.toNat + b.toNat + cin.toNat) % 65536 := by
  rw [add17_r]
  cases cin <;> simp [BitVec.toNat_add]

theorem add17_sub_z (a b : Word) : (add17 a (~~~b) true).z = decide (a = b) := by
  rw [add17_z, add17_sub_r, beq_zero_eq_decide, decide_eq_decide]
  exact sub_eq_zero

theorem State.additionC_eq (s : State) (rd : Reg) (a b : Word) :
    s.additionC rd a b = .next { s with
      regs := s.regs.set rd (add17 a b s.sr.c).r, pc := s.nextPc, pfx := none
      sr := { i := s.sr.i, c := decide (65536 ≤ a.toNat + b.toNat + s.sr.c.toNat)
              z := (!s.cfg.zChain || s.sr.z) && decide ((add17 a b s.sr.c).r = 0#16)
              t := (!s.cfg.zChain || s.sr.z) && decide ((add17 a b s.sr.c).r = 0#16) } } := by
  rw [State.additionC, State.finishCZT_eq, State.chainZ_eq, add17_c, add17_z, beq_zero_eq_decide]

theorem State.subtraction_eq (s : State) (rd : Reg) (a b : Word) :
    s.subtraction rd a b = .next { s with
      regs := s.regs.set rd (a - b), pc := s.nextPc, pfx := none
      sr := { i := s.sr.i, c := s.cfg.subCIsNotBorrow == decide (b.toNat ≤ a.toNat)
              z := decide (a = b), t := decide (a = b) } } := by
  rw [State.subtraction, State.finishCZT_eq, State.subCarry_eq, add17_sub_c, add17_sub_r, add17_sub_z]

/-- The word that a subtraction with borrow leaves (R135). -/
theorem State.subtractionC_eq (s : State) (rd : Reg) (a b : Word) :
    ∃ r : Word, r.toNat = (a.toNat + 65536 + 65536 - b.toNat - s.borrow) % 65536 ∧
      s.subtractionC rd a b = .next { s with
        regs := s.regs.set rd r, pc := s.nextPc, pfx := none
        sr := { i := s.sr.i, c := s.cfg.subCIsNotBorrow == decide (b.toNat + s.borrow ≤ a.toNat)
                z := (!s.cfg.zChain || s.sr.z) && decide (r = 0#16)
                t := (!s.cfg.zChain || s.sr.z) && decide (r = 0#16) } } := by
  have hborrow := s.subCarryIn_add_borrow
  refine ⟨(add17 a (~~~b) s.subCarryIn).r, add17_borrow_r a b hborrow, ?_⟩
  rw [State.subtractionC, State.finishCZT_eq, State.subCarry_eq, State.chainZ_eq, add17_borrow_c a b hborrow, add17_z,
    beq_zero_eq_decide]

/-! ### The forms of registers alone, with no prefix pending (R124) -/

theorem exec_adc_rrr_of_pfx_none (h : s.pfx = none) :
    exec (.adc_rrr rs rn rd) s = s.additionC rd (s.x rs) (s.x rn) := State.unprefixed_none h

theorem exec_sub_rrr_of_pfx_none (h : s.pfx = none) :
    exec (.sub_rrr rs rn rd) s = s.subtraction rd (s.x rs) (s.x rn) := State.unprefixed_none h

theorem exec_subc_rrr_of_pfx_none (h : s.pfx = none) :
    exec (.subc_rrr rs rn rd) s = s.subtractionC rd (s.x rs) (s.x rn) := State.unprefixed_none h

theorem exec_neg_rr_of_pfx_none (h : s.pfx = none) : exec (.neg_rr rs rd) s = s.subtraction rd 0#16 (s.x rs) :=
  State.unprefixed_none h

/-! ### Extensions (R140 to R142) -/

/-- A byte as a signed number. -/
theorem byte_toInt (b : Byte) : b.toInt = if b.toNat < 128 then (b.toNat : Int) else (b.toNat : Int) - 256 := by
  rw [BitVec.toInt_eq_toNat_cond]
  split <;> split <;> omega

/-- Bit 15 is the sign (R8). -/
theorem bit15_eq (a : Word) : a[15] = decide (a.toInt < 0) := by
  rw [← BitVec.msb_eq_toInt, BitVec.msb_eq_getLsbD_last]
  rfl

theorem signWord_toInt (a : Word) :
    (if a[15] then 0xFFFF#16 else 0x0000#16).toInt = if a.toInt < 0 then -1 else 0 := by
  rw [bit15_eq]
  by_cases h : a.toInt < 0
  · rw [if_pos (decide_eq_true h), if_pos h]; rfl
  · rw [if_neg (by simp [h]), if_neg h]; rfl

/-! ### Logic (R143 to R147) -/

theorem State.finishLogic_zero (s : State) (rd : Reg) (a b r : Word) :
    ∃ c, s.finishLogic rd a b r = .next { s with
      regs := s.regs.set rd r, pc := s.nextPc, pfx := none, draws := s.draws + 1
      sr := { i := s.sr.i, c := c, z := decide (r = 0#16), t := decide (r = 0#16) } } := by
  obtain ⟨c, h⟩ := s.finishLogic_eq rd a b r
  exact ⟨c, by rw [h, beq_zero_eq_decide]⟩

theorem State.unprefixed_finishLogic (h : s.pfx = none) (rd : Reg) (a b r : Word) :
    ∃ c, s.unprefixed (s.finishLogic rd a b r) = .next { s with
      regs := s.regs.set rd r, pc := s.nextPc, draws := s.draws + 1
      sr := { i := s.sr.i, c := c, z := decide (r = 0#16), t := decide (r = 0#16) } } := by
  obtain ⟨c, hc⟩ := s.finishLogic_zero rd a b r
  exact ⟨c, by rw [State.unprefixed_none h, hc, h]⟩

/-! ### Right shifts by one (R148 to R150) -/

theorem State.unprefixed_finishShift (h : s.pfx = none) (rd : Reg) (a r : Word) :
    ∃ z t, s.unprefixed (s.finishShift rd a r) = .next { s with
      regs := s.regs.set rd r, pc := s.nextPc, draws := s.draws + 1
      sr := { i := s.sr.i, c := decide (a.toNat % 2 = 1), z := z, t := t } } := by
  obtain ⟨z, t, hzt⟩ := s.finishShift_eq rd a r
  exact ⟨z, t, by rw [State.unprefixed_none h, hzt, bit0_eq, h]⟩

theorem lsr_toNat (a : Word) : (a >>> 1).toNat = a.toNat / 2 := by
  rw [BitVec.toNat_ushiftRight, Nat.shiftRight_eq_div_pow]

theorem asr_toInt (a : Word) : (a.sshiftRight 1).toInt = a.toInt / 2 := by
  rw [BitVec.toInt_sshiftRight, Int.shiftRight_eq_div_pow]
  rfl

theorem lsrc_toNat (c : Bool) (a : Word) :
    (BitVec.ofBool c ++ a.extractLsb' 1 15 : Word).toNat = a.toNat / 2 + 32768 * c.toNat := by
  have ha := a.isLt
  rw [BitVec.toNat_append, ← Nat.shiftLeft_add_eq_or_of_lt (BitVec.isLt _), Nat.shiftLeft_eq, BitVec.extractLsb'_toNat,
    Nat.shiftRight_eq_div_pow, BitVec.toNat_ofBool]
  omega

end Arithmetic

/-! ### The obligations -/

/-- Settles O19. -/
theorem addcAddsTheCarryAndChainsZero : Obligations.AddcAddsTheCarryAndChainsZero := by
  intro s rs rn rd h
  exact ⟨_, add17_r_toNat .., by rw [exec_adc_rrr_of_pfx_none h, State.additionC_eq, h]⟩

/-- Settles O20: `neg` subtracts from zero, where no borrow means that the operand is zero. -/
theorem subSetsNoBorrowAndZero : Obligations.SubSetsNoBorrowAndZero := by
  refine fun s => ⟨fun rd k => ?immediate, fun rs rn rd h => ?registers, fun rs rd h => ?negation⟩
  case immediate => exact State.subtraction_eq s rd (s.x rd) (s.immZ k)
  case registers => rw [exec_sub_rrr_of_pfx_none h, State.subtraction_eq, h]
  case negation =>
    have hle : (s.x rs).toNat ≤ (0#16).toNat ↔ s.x rs = 0#16 := by
      rw [BitVec.toNat_ofNat, Nat.zero_mod, Nat.le_zero, ← BitVec.toNat_inj]
      rfl
    rw [exec_neg_rr_of_pfx_none h, State.subtraction_eq, h, BitVec.zero_sub, decide_eq_decide.2 hle,
      decide_eq_decide.2 (eq_comm (a := 0#16))]

/-- Settles O21. -/
theorem subcSubtractsTheBorrowAndChainsZero : Obligations.SubcSubtractsTheBorrowAndChainsZero := by
  intro s rs rn rd h
  obtain ⟨r, hr, hexec⟩ := s.subtractionC_eq rd (s.x rs) (s.x rn)
  exact ⟨r, hr, by rw [exec_subc_rrr_of_pfx_none h, hexec, h]⟩

/-- Settles O23. -/
theorem extensionsOfTheLowByteAndTheSign : Obligations.ExtensionsOfTheLowByteAndTheSign := by
  refine fun s rs rd h => ⟨⟨_, ?zext, State.unprefixed_finish h⟩, ⟨_, ?sext, State.unprefixed_finish h⟩,
    ⟨_, signWord_toInt (s.x rs), State.unprefixed_finish h⟩⟩
  case zext => exact (BitVec.toNat_setWidth_of_le (by decide)).trans (lowByte_toNat _)
  case sext =>
    refine (BitVec.toInt_signExtend_of_le (by decide)).trans ?_
    rw [byte_toInt, lowByte_toNat]
    norm_cast

/-- Settles O24: each result bit by bit; the flags are those of `State.finishLogic`. -/
theorem logicSetsZeroAndLeavesCarryOpen : Obligations.LogicSetsZeroAndLeavesCarryOpen := by
  refine fun s => ⟨fun rs rd k => ?immediate, fun i f rs rn rd h hi => ?registers⟩
  case immediate =>
    obtain ⟨c, hc⟩ := s.finishLogic_zero rd (s.x rs) (s.immZ k) (s.x rs &&& s.immZ k)
    exact ⟨_, c, fun n => BitVec.getLsbD_and, hc⟩
  case registers =>
    rcases hi with ⟨rfl, rfl⟩ | ⟨rfl, rfl⟩ | ⟨rfl, rfl⟩ | ⟨rfl, rfl⟩
    · obtain ⟨c, hc⟩ := State.unprefixed_finishLogic h rd (s.x rs) (s.x rn) (s.x rs &&& s.x rn)
      exact ⟨_, c, fun n _ => BitVec.getLsbD_and, hc⟩
    · obtain ⟨c, hc⟩ := State.unprefixed_finishLogic h rd (s.x rs) (s.x rn) (s.x rs ||| s.x rn)
      exact ⟨_, c, fun n _ => BitVec.getLsbD_or, hc⟩
    · obtain ⟨c, hc⟩ := State.unprefixed_finishLogic h rd (s.x rs) (s.x rn) (s.x rs ^^^ s.x rn)
      exact ⟨_, c, fun n _ => BitVec.getLsbD_xor, hc⟩
    · obtain ⟨c, hc⟩ := State.unprefixed_finishLogic h rd (s.x rs) 0#16 (~~~(s.x rs))
      exact ⟨_, c, fun n hn => by rw [BitVec.getLsbD_not, decide_eq_true hn, Bool.true_and], hc⟩

/-- Settles O25: each result as a number; the flags are those of `State.finishShift`. -/
theorem shiftsMoveBitZeroToCarry : Obligations.ShiftsMoveBitZeroToCarry := by
  intro s rs rd h
  obtain ⟨z0, t0, h0⟩ := State.unprefixed_finishShift h rd (s.x rs) (s.x rs >>> 1)
  obtain ⟨z1, t1, h1⟩ := State.unprefixed_finishShift h rd (s.x rs) ((s.x rs).sshiftRight 1)
  obtain ⟨z2, t2, h2⟩ :=
    State.unprefixed_finishShift h rd (s.x rs) (BitVec.ofBool s.sr.c ++ (s.x rs).extractLsb' 1 15)
  exact ⟨⟨_, z0, t0, lsr_toNat _, h0⟩, ⟨_, z1, t1, asr_toInt _, h1⟩, ⟨_, z2, t2, lsrc_toNat .., h2⟩⟩

end Sys2Proof.Machine
end

section
/-! Compares (42_compare.md), and arithmetic wider than a register (R151, R175): every condition code is one expression of
three tests (no borrow, signed no less, equal), and each test of two 32-bit values is that of the high words with the borrow
and the zero test of the low words. -/

namespace Sys2Proof

/-- A condition code from its three tests: unsigned no less, signed no less, equal (R170). -/
def Cond.select (cc : Cond) (uge ge zero : Bool) : Bool :=
  match cc with
  | .eq => zero
  | .ne => !zero
  | .uge => uge
  | .ult => !uge
  | .ge => ge
  | .lt => !ge
  | .ugt => uge && !zero
  | .gt => ge && !zero

/-- The relation of a condition code by the three tests on the numbers. -/
theorem Cond.relation_eq_select {n : Nat} (cc : Cond) (a b : BitVec n) :
    cc.relation a b = cc.select (decide (b.toNat ≤ a.toNat)) (decide (b.toInt ≤ a.toInt)) (decide (a = b)) := by
  have hnat : a = b ↔ a.toNat = b.toNat := BitVec.toNat_inj.symm
  have hint : a = b ↔ a.toInt = b.toInt := BitVec.toInt_inj.symm
  cases cc
  case eq | uge | ge => rfl
  case ne => exact decide_not
  case ult | lt => simp [Cond.relation, Cond.select, ← decide_not]
  case ugt =>
    rw [Cond.relation, Cond.select, ← decide_not, ← Bool.decide_and, decide_eq_decide, hnat]
    omega
  case gt =>
    rw [Cond.relation, Cond.select, ← decide_not, ← Bool.decide_and, decide_eq_decide, hint]
    omega

end Sys2Proof

namespace Sys2Proof.Machine

section Compare

variable {s t : State} {a b aH aL bH bL : Word}

/-! ### The adder's flags after a subtraction with borrow (R10, R170, R171) -/

/-- The flags expressions of R170 by the three tests: C, S equal to V, and Z. -/
theorem condHolds_eq_select (cc : Cond) (c z s v : Bool) : condHolds cc c z s v = cc.select c (s == v) z := by
  cases cc <;> rfl

/-- Bit 15 by the number without a sign. -/
theorem bit15_eq_le (a : Word) : a[15] = decide (32768 ≤ a.toNat) := by
  rw [bit15_eq, decide_eq_decide, BitVec.toInt_eq_toNat_cond]
  split <;> omega

/-- The sign `r` of a sum equals its overflow, of summands with the signs `p` and `q` (R10). -/
theorem sign_eq_overflow_iff (r p q : Bool) :
    (r == (p == q && r != p)) = true ↔ (r = true ↔ (p = true ↔ q = true) ∧ ¬(r = true ↔ p = true)) := by
  revert r p q
  decide

/-- The sign equals the overflow where the exact difference is not negative. -/
theorem add17_borrow_ge (a b : Word) {cin : Bool} {n : Nat} (h : cin.toNat + n = 1) :
    ((add17 a (~~~b) cin).s == (add17 a (~~~b) cin).v) = decide ((0 : Int) ≤ a.toInt - b.toInt - n) := by
  have hr := add17_borrow_r a b h
  have hs : (add17 a (~~~b) cin).s = (add17 a (~~~b) cin).r[15] := rfl
  have hv : (add17 a (~~~b) cin).v = (a[15] == (~~~b)[15] && (add17 a (~~~b) cin).r[15] != a[15]) := rfl
  rw [hs, hv]
  generalize (add17 a (~~~b) cin).r = r at hr
  have ha := a.isLt
  have hb := b.isLt
  rw [Bool.eq_iff_iff, sign_eq_overflow_iff]
  simp only [bit15_eq_le, BitVec.toNat_not, BitVec.toInt_eq_toNat_cond, decide_eq_true_eq]
  split <;> split <;> omega

/-- The difference with borrow is zero where the minuend is the sum of the other two. -/
theorem add17_borrow_z (a b : Word) {cin : Bool} {n : Nat} (h : cin.toNat + n = 1) :
    (add17 a (~~~b) cin).z = decide (a.toNat = (b.toNat + n) % 65536) := by
  have hr := add17_borrow_r a b h
  have ha := a.isLt
  have hb := b.isLt
  rw [add17_z, beq_zero_eq_decide, decide_eq_decide, ← BitVec.toNat_inj, hr, BitVec.toNat_ofNat]
  omega

/-- What a compare decides, by the exact difference with the borrow `n`. -/
theorem compareHolds_eq_select (cc : Cond) (a b : Word) {cin : Bool} {n : Nat} (zin : Bool) (h : cin.toNat + n = 1) :
    compareHolds cc a b cin zin = cc.select (decide (b.toNat + n ≤ a.toNat))
      (decide ((0 : Int) ≤ a.toInt - b.toInt - n)) (zin && decide (a.toNat = (b.toNat + n) % 65536)) := by
  rw [compareHolds, condHolds_eq_select, add17_borrow_c a b h, add17_borrow_ge a b h, add17_borrow_z a b h, Bool.and_comm]

/-- Without a borrow the three tests are those of the relation (R172, R174). -/
theorem compareHolds_eq_relation (cc : Cond) (a b : Word) : compareHolds cc a b true true = cc.relation a b := by
  have hb := b.isLt
  have hge : (0 : Int) ≤ a.toInt - b.toInt - (0 : Nat) ↔ b.toInt ≤ a.toInt := by omega
  have hzero : a.toNat = (b.toNat + 0) % 65536 ↔ a = b := by rw [← BitVec.toNat_inj]; omega
  rw [compareHolds_eq_select cc a b (n := 0) true rfl, cc.relation_eq_select, Nat.add_zero, decide_eq_decide.2 hge,
    Bool.true_and]
  exact congrArg _ (decide_eq_decide.2 hzero)

theorem State.cmp_eq_relation (s : State) (cc : Cond) (a b : Word) :
    s.cmp cc a b = .next { s with
      pc := s.nextPc, pfx := none, sr := { s.sr with t := cc.relation a b } } := by
  rw [State.cmp_eq, compareHolds_eq_relation]

theorem State.cmpc_eq_select (s : State) (cc : Cond) (a b : Word) :
    s.cmpc cc a b = .next { s with
      pc := s.nextPc, pfx := none
      sr := { s.sr with
        t := cc.select (decide (b.toNat + s.borrow ≤ a.toNat)) (decide ((0 : Int) ≤ a.toInt - b.toInt - s.borrow))
          ((!s.cfg.zChain || s.sr.z) && decide (a.toNat = (b.toNat + s.borrow) % 65536)) } } := by
  rw [State.cmpc_eq, compareHolds_eq_select cc a b _ s.subCarryIn_add_borrow, State.chainZ_eq, Bool.and_true]

end Compare

/-! ### Values of two words (R151) -/

section Wide

variable {s t : State} {aH aL bH bL rH rL : Word}

theorem append_toNat (x y : Word) : (x ++ y : BitVec 32).toNat = 65536 * x.toNat + y.toNat := by
  rw [BitVec.toNat_append, ← Nat.shiftLeft_add_eq_or_of_lt y.isLt, Nat.shiftLeft_eq, Nat.mul_comm]

theorem append_toInt (x y : Word) : (x ++ y : BitVec 32).toInt = 65536 * x.toInt + y.toNat := by
  have hx := x.isLt
  have hy := y.isLt
  rw [BitVec.toInt_eq_toNat_cond, BitVec.toInt_eq_toNat_cond, append_toNat]
  split <;> split <;> omega

theorem append_inj_iff (x y u v : Word) : (x ++ y : BitVec 32) = u ++ v ↔ x = u ∧ y = v := by
  have hy := y.isLt
  have hv := v.isLt
  rw [← BitVec.toNat_inj, ← BitVec.toNat_inj, ← BitVec.toNat_inj, append_toNat, append_toNat]
  omega

/-- The borrow that the low words leave, as a number. -/
def lowBorrow (a b : Word) : Nat := (decide (a.toNat < b.toNat)).toNat

/-- The stored C after a subtraction without carry-in stands for its borrow, under either reading (D9). -/
theorem State.borrow_eq_lowBorrow (hc : s.sr.c = (s.cfg.subCIsNotBorrow == decide (bL.toNat ≤ aL.toNat))) :
    s.borrow = lowBorrow aL bL := by
  rw [State.borrow, lowBorrow, hc]
  by_cases h : bL.toNat ≤ aL.toNat
  · cases s.cfg.subCIsNotBorrow <;> simp [h, Nat.not_lt.2 h]
  · cases s.cfg.subCIsNotBorrow <;> simp [h, Nat.lt_of_not_le h]

theorem lowBorrow_cases (a b : Word) :
    (a.toNat < b.toNat ∧ lowBorrow a b = 1) ∨ (b.toNat ≤ a.toNat ∧ lowBorrow a b = 0) := by
  rcases Nat.lt_or_ge a.toNat b.toNat with h | h
  · exact .inl ⟨h, by rw [lowBorrow, decide_eq_true h]; rfl⟩
  · exact .inr ⟨h, by rw [lowBorrow, decide_eq_false (Nat.not_lt.2 h)]; rfl⟩

/-- No 32-bit borrow is no borrow of the high words with that of the low words. -/
theorem wide_le_iff (aH aL bH bL : Word) :
    (bH ++ bL : BitVec 32).toNat ≤ (aH ++ aL : BitVec 32).toNat ↔ bH.toNat + lowBorrow aL bL ≤ aH.toNat := by
  have ha := aL.isLt
  have hb := bL.isLt
  rw [append_toNat, append_toNat]
  rcases lowBorrow_cases aL bL with ⟨h, h'⟩ | ⟨h, h'⟩ <;> omega

theorem wide_toInt_le_iff (aH aL bH bL : Word) :
    (bH ++ bL : BitVec 32).toInt ≤ (aH ++ aL : BitVec 32).toInt ↔
      (0 : Int) ≤ aH.toInt - bH.toInt - lowBorrow aL bL := by
  have ha := aL.isLt
  have hb := bL.isLt
  rw [append_toInt, append_toInt]
  rcases lowBorrow_cases aL bL with ⟨h, h'⟩ | ⟨h, h'⟩ <;> omega

/-- Equal low words leave no borrow, so the chained zero test is the 32-bit one (D10). -/
theorem wide_eq_iff (aH aL bH bL : Word) :
    (aH ++ aL : BitVec 32) = bH ++ bL ↔ aL = bL ∧ aH.toNat = (bH.toNat + lowBorrow aL bL) % 65536 := by
  have hb := bH.isLt
  rw [append_inj_iff, ← BitVec.toNat_inj, ← BitVec.toNat_inj]
  rcases lowBorrow_cases aL bL with ⟨h, h'⟩ | ⟨h, h'⟩ <;> omega

/-- A carry out of the low words goes into the sum of the high words. -/
theorem wide_add (hH : rH.toNat = (aH.toNat + bH.toNat + (decide (65536 ≤ aL.toNat + bL.toNat)).toNat) % 65536) :
    (rH ++ (aL + bL) : BitVec 32) = (aH ++ aL) + (bH ++ bL) := by
  have ha := aL.isLt
  have hb := bL.isLt
  refine BitVec.eq_of_toNat_eq ?_
  rw [BitVec.toNat_add, append_toNat, append_toNat, append_toNat, hH, BitVec.toNat_add]
  rcases Nat.lt_or_ge (aL.toNat + bL.toNat) 65536 with h | h
  · rw [decide_eq_false (Nat.not_le.2 h), Bool.toNat_false]; omega
  · rw [decide_eq_true h, Bool.toNat_true]; omega

theorem wide_add_carry_iff (aH aL bH bL : Word) :
    65536 ≤ aH.toNat + bH.toNat + (decide (65536 ≤ aL.toNat + bL.toNat)).toNat ↔
      4294967296 ≤ (aH ++ aL : BitVec 32).toNat + (bH ++ bL : BitVec 32).toNat := by
  have ha := aL.isLt
  have hb := bL.isLt
  rw [append_toNat, append_toNat]
  rcases Nat.lt_or_ge (aL.toNat + bL.toNat) 65536 with h | h
  · rw [decide_eq_false (Nat.not_le.2 h), Bool.toNat_false]; omega
  · rw [decide_eq_true h, Bool.toNat_true]; omega

/-- A borrow of the low words goes into the difference of the high words. -/
theorem wide_sub (hH : rH.toNat = (aH.toNat + 65536 + 65536 - bH.toNat - lowBorrow aL bL) % 65536) :
    (rH ++ (aL - bL) : BitVec 32) = (aH ++ aL) - (bH ++ bL) := by
  have haL := aL.isLt
  have hbL := bL.isLt
  have hbH := bH.isLt
  refine BitVec.eq_of_toNat_eq ?_
  rw [BitVec.toNat_sub, append_toNat, append_toNat, append_toNat, hH, BitVec.toNat_sub]
  rcases lowBorrow_cases aL bL with ⟨h, h'⟩ | ⟨h, h'⟩ <;> omega

/-- The two zero tests of a 32-bit result are the one of the result. -/
theorem wide_zero (rH rL : Word) :
    (decide (rL = 0#16) && decide (rH = 0#16)) = decide ((rH ++ rL : BitVec 32) = 0) := by
  have h := append_inj_iff rH rL 0#16 0#16
  rw [← Bool.decide_and, decide_eq_decide, and_comm]
  exact h.symm

end Wide

/-! ### The obligations -/

/-- Settles O30. -/
theorem compareSetsTToTheRelation : Obligations.CompareSetsTToTheRelation := by
  refine fun s cc rs => ⟨fun k => s.cmp_eq_relation cc (s.x rs) (s.immS k), fun rn h => ?registers⟩
  case registers =>
    calc exec (.cmp_rrc cc rs rn) s = s.cmp cc (s.x rs) (s.x rn) := State.unprefixed_none h
      _ = _ := by rw [State.cmp_eq_relation, h]

/-- Settles O31: both forms are `State.cmpc` of their operands. -/
theorem compareWithCarrySetsT : Obligations.CompareWithCarrySetsT := by
  intro s cc rs b i hi
  have hcmpc : exec i s = s.cmpc cc (s.x rs) b := by
    rcases hi with ⟨k, rfl, rfl⟩ | ⟨rn, rfl, rfl, hp⟩
    · rfl
    · exact State.unprefixed_none hp
  rw [hcmpc, State.cmpc_eq_select]
  cases cc <;> rfl

end Sys2Proof.Machine
end

section
/-! Arithmetic wider than a register (R151, R175): two instructions in a row, where the second finds in C and Z what the first
left there and in its own operands what the first left alone. -/

namespace Sys2Proof.Machine

section Pairs

variable {s t : State} {rs rn rd q : Reg} {v aH aL bH bL vH vL : Word}

/-! ### One instruction that writes one register -/

/-- `t` is `s` after an instruction that wrote `v` to `rd` and to no other register, with no prefix pending. -/
structure State.Wrote (s t : State) (rd : Reg) (v : Word) : Prop where
  pfx : t.pfx = none
  cfg : t.cfg = s.cfg
  dest : t.x rd = v
  other : ∀ q, q ≠ rd → t.x q = s.x q

theorem State.Wrote.of_regs (hpfx : t.pfx = none) (hcfg : t.cfg = s.cfg) (hregs : t.regs = s.regs.set rd v) :
    s.Wrote t rd v := by
  refine ⟨hpfx, hcfg, ?_, fun q hq => ?_⟩
  · rw [State.x, hregs, Regs.get_set_self]
  · rw [State.x, hregs, Regs.get_set_ne _ _ hq, State.x]

/-- The sum of two registers, as the low half of a wider sum. -/
theorem exec_add_rrr_wrote (h : s.pfx = none) : ∃ t, exec (.add_rrr rs rn rd) s = .next t ∧
    s.Wrote t rd (s.x rs + s.x rn) ∧ t.sr.c = decide (65536 ≤ (s.x rs).toNat + (s.x rn).toNat) ∧
      t.sr.z = decide (s.x rs + s.x rn = 0#16) :=
  ⟨_, (exec_add_rrr_eq_addition rs rn rd h).trans (s.addition_eq ..), .of_regs rfl rfl rfl, rfl, rfl⟩

/-- The difference of two registers, as the low half of a wider difference: C and Z stand for its borrow and its zero
test. -/
theorem exec_sub_rrr_wrote (h : s.pfx = none) : ∃ t, exec (.sub_rrr rs rn rd) s = .next t ∧
    s.Wrote t rd (s.x rs - s.x rn) ∧ t.borrow = lowBorrow (s.x rs) (s.x rn) ∧ t.sr.z = decide (s.x rs = s.x rn) :=
  ⟨_, (exec_sub_rrr_of_pfx_none h).trans (s.subtraction_eq ..), .of_regs rfl rfl rfl, State.borrow_eq_lowBorrow rfl, rfl⟩

/-- The sum with carry-in, as the high half of a wider sum. -/
theorem exec_adc_rrr_wrote (h : s.pfx = none) (hz : s.cfg.zChain = true) :
    ∃ t r, exec (.adc_rrr rs rn rd) s = .next t ∧ s.Wrote t rd r ∧
      r.toNat = ((s.x rs).toNat + (s.x rn).toNat + s.sr.c.toNat) % 65536 ∧
      t.sr.c = decide (65536 ≤ (s.x rs).toNat + (s.x rn).toNat + s.sr.c.toNat) ∧
      t.sr.z = (s.sr.z && decide (r = 0#16)) ∧ t.sr.t = (s.sr.z && decide (r = 0#16)) := by
  have hexec := (exec_adc_rrr_of_pfx_none h).trans (s.additionC_eq rd (s.x rs) (s.x rn))
  rw [hz] at hexec
  exact ⟨_, _, hexec, .of_regs rfl rfl rfl, add17_r_toNat .., rfl, rfl, rfl⟩

/-- The difference with borrow, as the high half of a wider difference. -/
theorem exec_subc_rrr_wrote (h : s.pfx = none) (hz : s.cfg.zChain = true) :
    ∃ t r, exec (.subc_rrr rs rn rd) s = .next t ∧ s.Wrote t rd r ∧
      r.toNat = ((s.x rs).toNat + 65536 + 65536 - (s.x rn).toNat - s.borrow) % 65536 ∧
      t.sr.c = (s.cfg.subCIsNotBorrow == decide ((s.x rn).toNat + s.borrow ≤ (s.x rs).toNat)) ∧
      t.sr.z = (s.sr.z && decide (r = 0#16)) ∧ t.sr.t = (s.sr.z && decide (r = 0#16)) := by
  obtain ⟨r, hr, hexec⟩ := s.subtractionC_eq rd (s.x rs) (s.x rn)
  rw [hz] at hexec
  exact ⟨_, r, (exec_subc_rrr_of_pfx_none h).trans hexec, .of_regs rfl rfl rfl, hr, rfl, rfl, rfl⟩

/-- A right shift by one puts the bit that leaves its operand `a` into C. -/
theorem State.unprefixed_finishShift_wrote (h : s.pfx = none) (rd : Reg) (a r : Word) :
    ∃ t, s.unprefixed (s.finishShift rd a r) = .next t ∧ s.Wrote t rd r ∧ t.sr.c = decide (a.toNat % 2 = 1) := by
  obtain ⟨z, t, hexec⟩ := State.unprefixed_finishShift h rd a r
  exact ⟨_, hexec, .of_regs h rfl rfl, rfl⟩

/-- `lsrc` on the low word after a shift of the high word: the bit that the high word lost enters at the top. -/
theorem exec_lsrc_rr_after {aL rL rH : Reg} {a : Word} (hhigh : s.Wrote t rH v) (hc : t.sr.c = decide (a.toNat % 2 = 1))
    (hA : rH ≠ aL) (hR : rH ≠ rL) : ∃ u, exec (.lsrc_rr aL rL) t = .next u ∧ u.x rH = v ∧
      (u.x rL).toNat = (s.x aL).toNat / 2 + 32768 * (decide (a.toNat % 2 = 1)).toNat ∧
      u.sr.c = decide ((s.x aL).toNat % 2 = 1) := by
  obtain ⟨u, hu, hlow, hcu⟩ := State.unprefixed_finishShift_wrote hhigh.pfx rL (t.x aL)
    (BitVec.ofBool t.sr.c ++ (t.x aL).extractLsb' 1 15)
  rw [hhigh.other aL hA.symm] at hlow hcu
  refine ⟨u, hu, (hlow.other rH hR).trans hhigh.dest, ?_, hcu⟩
  rw [hlow.dest, lsrc_toNat, hc]

/-! ### The shift of two words by one (R150, R151) -/

/-- The bit that leaves the high word enters the low word at the top. -/
theorem wide_lsr (hH : vH.toNat = aH.toNat / 2)
    (hL : vL.toNat = aL.toNat / 2 + 32768 * (decide (aH.toNat % 2 = 1)).toNat) :
    (vH ++ vL : BitVec 32) = (aH ++ aL) >>> 1 := by
  refine BitVec.eq_of_toNat_eq ?_
  rw [append_toNat, BitVec.toNat_ushiftRight, append_toNat, Nat.shiftRight_eq_div_pow, hH, hL]
  rcases Nat.mod_two_eq_zero_or_one aH.toNat with h | h <;> rw [h] <;> simp <;> omega

theorem wide_asr (hH : vH.toInt = aH.toInt / 2)
    (hL : vL.toNat = aL.toNat / 2 + 32768 * (decide (aH.toNat % 2 = 1)).toNat) :
    (vH ++ vL : BitVec 32) = (aH ++ aL).sshiftRight 1 := by
  have hparity : aH.toInt % 2 = (aH.toNat % 2 : Nat) := by
    rw [BitVec.toInt_eq_toNat_cond]
    split <;> omega
  refine BitVec.eq_of_toInt_eq ?_
  rw [append_toInt, BitVec.toInt_sshiftRight, append_toInt, Int.shiftRight_eq_div_pow, hH, hL]
  rcases Nat.mod_two_eq_zero_or_one aH.toNat with h | h <;> rw [h] at hparity ⊢ <;> simp <;> omega

end Pairs

/-! ### The obligations -/

/-- Settles O26: `addc` finds the carry and the zero test of the low words in C and Z. -/
theorem addThenAddcIsWideAddition : Obligations.AddThenAddcIsWideAddition := by
  intro s aL bL rL aH bH rH hp hz hA hB hR
  obtain ⟨t, ht, hlow, hcarry, hzero⟩ := exec_add_rrr_wrote (rs := aL) (rn := bL) (rd := rL) hp
  obtain ⟨u, r, hu, hhigh, hr, hc, hzu, htu⟩ :=
    exec_adc_rrr_wrote (rs := aH) (rn := bH) (rd := rH) hlow.pfx (hlow.cfg ▸ hz)
  rw [hlow.other aH hA.symm, hlow.other bH hB.symm, hcarry] at hr hc
  have hsum := wide_add hr
  have hwide : (t.sr.z && decide (r = 0#16)) = decide ((s.x aH ++ s.x aL : BitVec 32) + (s.x bH ++ s.x bL) = 0) := by
    rw [hzero, wide_zero, hsum]
  refine ⟨t, u, ht, hu, ?_, hc.trans (decide_eq_decide.2 (wide_add_carry_iff ..)), hzu.trans hwide, htu.trans hwide⟩
  rw [hhigh.dest, hhigh.other rL hR, hlow.dest, hsum]

/-- Settles O27: `subc` finds the borrow and the zero test of the low words in C and Z. -/
theorem subThenSubcIsWideSubtraction : Obligations.SubThenSubcIsWideSubtraction := by
  intro s aL bL rL aH bH rH hp hz hA hB hR
  obtain ⟨t, ht, hlow, hborrow, hzero⟩ := exec_sub_rrr_wrote (rs := aL) (rn := bL) (rd := rL) hp
  obtain ⟨u, r, hu, hhigh, hr, hc, hzu, htu⟩ :=
    exec_subc_rrr_wrote (rs := aH) (rn := bH) (rd := rH) hlow.pfx (hlow.cfg ▸ hz)
  rw [hlow.other aH hA.symm, hlow.other bH hB.symm, hborrow] at hr hc
  have hdiff := wide_sub hr
  have hwide : (t.sr.z && decide (r = 0#16)) = decide ((s.x aH ++ s.x aL : BitVec 32) = s.x bH ++ s.x bL) := by
    have hlowZero : decide (s.x aL = s.x bL) = decide (s.x aL - s.x bL = 0#16) := decide_eq_decide.2 sub_eq_zero.symm
    rw [hzero, hlowZero, wide_zero, hdiff]
    exact decide_eq_decide.2 sub_eq_zero
  refine ⟨t, u, ht, hu, ?_, ?_, hzu.trans hwide, htu.trans hwide⟩
  · rw [hhigh.dest, hhigh.other rL hR, hlow.dest, hdiff]
  · rw [hc, hlow.cfg, decide_eq_decide.2 (wide_le_iff ..)]

/-- Settles O28: the three tests of `cmpc` on the high words are those of the 32-bit values. -/
theorem subThenCmpcIsWideCompare : Obligations.SubThenCmpcIsWideCompare := by
  intro s cc aL bL rL aH bH hp hz hA hB
  obtain ⟨t, ht, hlow, hborrow, hzero⟩ := exec_sub_rrr_wrote (rs := aL) (rn := bL) (rd := rL) hp
  have hu : exec (.cmpc_rrc cc aH bH) t = t.cmpc cc (t.x aH) (t.x bH) := State.unprefixed_none hlow.pfx
  refine ⟨t, _, ht, hu.trans (t.cmpc_eq_select ..), ?_⟩
  rw [cc.relation_eq_select, decide_eq_decide.2 (wide_le_iff ..), decide_eq_decide.2 (wide_toInt_le_iff ..),
    decide_eq_decide.2 (wide_eq_iff ..), Bool.decide_and, hlow.other aH hA.symm, hlow.other bH hB.symm, hborrow, hzero,
    hlow.cfg, hz]
  rfl

/-- Settles O29: `lsrc` takes the bit that the high word lost from C. -/
theorem shiftThenLsrcIsWideShift : Obligations.ShiftThenLsrcIsWideShift := by
  intro s aL aH rL rH hp hA hR
  refine ⟨?lsr, ?asr⟩
  case lsr =>
    obtain ⟨t, ht, hhigh, hc⟩ := State.unprefixed_finishShift_wrote hp rH (s.x aH) (s.x aH >>> 1)
    obtain ⟨u, hu, hH, hL, hcu⟩ := exec_lsrc_rr_after hhigh hc hA hR
    exact ⟨t, u, ht, hu, wide_lsr (hH ▸ lsr_toNat _) hL, hcu⟩
  case asr =>
    obtain ⟨t, ht, hhigh, hc⟩ := State.unprefixed_finishShift_wrote hp rH (s.x aH) ((s.x aH).sshiftRight 1)
    obtain ⟨u, hu, hH, hL, hcu⟩ := exec_lsrc_rr_after hhigh hc hA hR
    exact ⟨t, u, ht, hu, wide_asr (hH ▸ asr_toInt _) hL, hcu⟩

end Sys2Proof.Machine
end
